-- ==== Sys2Proof/Word.lean ====
section
/-!
DEFINITION. The word types of the chip-go CORE (spec/00_scope.md R5, R7; spec/10_state.md R20 to R25).
Every value of the machine is unsigned (R7). Addresses of memory cells are natural numbers (spec/20_memory.md R50).
-/

namespace Sys2Proof

/-- The content of a general register, a timer or a memory cell: 8 bits (R5 `REG_W`, `TIMER_W`, `MEM_SIZE`). -/
abbrev Byte := BitVec 8

/-- The content of `I`, `PC` and a stack slot, and an instruction word: 16 bits (R5 `I_W`, `PC_W`, `STACK_W`). -/
abbrev Word := BitVec 16

/-- The number of a general register, 0 to 15 (R20). -/
abbrev RegIx := Fin 16

/-- The number of a key, 0 to 15 (R31). -/
abbrev KeyNum := Fin 16

end Sys2Proof
end

