-- ==== Sys2Proof/Syntax.lean ====
section
/-!
DEFINITION. The 34 instructions of spec/30_encoding.md R75, one constructor per row of spec/opcode_table.json.
Fields follow R71: `x`, `y` select registers, `kk` is an 8-bit immediate, `n` a row count, `addr` a memory address.
-/

namespace Sys2Proof

/-- An instruction. Counts and addresses (`n`, `addr`) are natural numbers whose bounds `Instr.wellFormed` checks.
The `y` of the two shifts is part of the word and ignored by the operation (R75). -/
inductive Instr where
  /-- `00E0`, R100. -/
  | cls
  /-- `00EE`, R101. -/
  | ret
  /-- `1nnn`, R102. -/
  | jpAddr (addr : Nat)
  /-- `2nnn`, R103. -/
  | callAddr (addr : Nat)
  /-- `3xkk`, R104. -/
  | seVxKk (x : RegIx) (kk : Byte)
  /-- `4xkk`, R105. -/
  | sneVxKk (x : RegIx) (kk : Byte)
  /-- `5xy0`, R106. -/
  | seVxVy (x y : RegIx)
  /-- `6xkk`, R120. -/
  | ldVxKk (x : RegIx) (kk : Byte)
  /-- `7xkk`, R121. -/
  | addVxKk (x : RegIx) (kk : Byte)
  /-- `8xy0`, R122. -/
  | ldVxVy (x y : RegIx)
  /-- `8xy1`, R123. -/
  | orVxVy (x y : RegIx)
  /-- `8xy2`, R124. -/
  | andVxVy (x y : RegIx)
  /-- `8xy3`, R125. -/
  | xorVxVy (x y : RegIx)
  /-- `8xy4`, R126. -/
  | addVxVy (x y : RegIx)
  /-- `8xy5`, R127. -/
  | subVxVy (x y : RegIx)
  /-- `8xy6`, R128. -/
  | shrVx (x y : RegIx)
  /-- `8xy7`, R129. -/
  | subnVxVy (x y : RegIx)
  /-- `8xyE`, R130. -/
  | shlVx (x y : RegIx)
  /-- `9xy0`, R107. -/
  | sneVxVy (x y : RegIx)
  /-- `Annn`, R140. -/
  | ldIAddr (addr : Nat)
  /-- `Bnnn`, R141. -/
  | jpV0Addr (addr : Nat)
  /-- `Cxkk`, R142. -/
  | rndVxKk (x : RegIx) (kk : Byte)
  /-- `Dxyn`, R151. -/
  | drwVxVyN (x y : RegIx) (n : Nat)
  /-- `Ex9E`, R160. -/
  | skpVx (x : RegIx)
  /-- `ExA1`, R161. -/
  | sknpVx (x : RegIx)
  /-- `Fx07`, R170. -/
  | ldVxDt (x : RegIx)
  /-- `Fx0A`, R171. -/
  | ldVxK (x : RegIx)
  /-- `Fx15`, R172. -/
  | ldDtVx (x : RegIx)
  /-- `Fx18`, R173. -/
  | ldStVx (x : RegIx)
  /-- `Fx1E`, R174. -/
  | addIVx (x : RegIx)
  /-- `Fx29`, R175. -/
  | ldFVx (x : RegIx)
  /-- `Fx33`, R176. -/
  | ldBVx (x : RegIx)
  /-- `Fx55`, R177. -/
  | ldMemIVx (x : RegIx)
  /-- `Fx65`, R178. -/
  | ldVxMemI (x : RegIx)
  deriving DecidableEq, Repr

end Sys2Proof
end

