-- ==== Sys2Proof/WellFormed.lean ====
section
/-!
DEFINITION. Which terms of `Instr` are instructions of the machine: the immediates that are numbers fit their fields
(spec/30_encoding.md R71: `addr` has 12 bits, `n` has 4). Register numbers and `kk` are bounded by their types.
-/

namespace Sys2Proof

/-- `addr` is `word[11:0]`, a 12-bit address (R71). -/
def addrFits (addr : Nat) : Bool := decide (addr < 0x1000)

/-- `n` is `word[3:0]`, a 4-bit immediate (R71). -/
def rowCountFits (n : Nat) : Bool := decide (n < 16)

/-- The instruction has an encoding: each numeric field fits its bits (R71, R72). -/
def Instr.wellFormed : Instr → Bool
  | .cls => true
  | .ret => true
  | .jpAddr addr => addrFits addr
  | .callAddr addr => addrFits addr
  | .seVxKk _ _ => true
  | .sneVxKk _ _ => true
  | .seVxVy _ _ => true
  | .ldVxKk _ _ => true
  | .addVxKk _ _ => true
  | .ldVxVy _ _ => true
  | .orVxVy _ _ => true
  | .andVxVy _ _ => true
  | .xorVxVy _ _ => true
  | .addVxVy _ _ => true
  | .subVxVy _ _ => true
  | .shrVx _ _ => true
  | .subnVxVy _ _ => true
  | .shlVx _ _ => true
  | .sneVxVy _ _ => true
  | .ldIAddr addr => addrFits addr
  | .jpV0Addr addr => addrFits addr
  | .rndVxKk _ _ => true
  | .drwVxVyN _ _ n => rowCountFits n
  | .skpVx _ => true
  | .sknpVx _ => true
  | .ldVxDt _ => true
  | .ldVxK _ => true
  | .ldDtVx _ => true
  | .ldStVx _ => true
  | .addIVx _ => true
  | .ldFVx _ => true
  | .ldBVx _ => true
  | .ldMemIVx _ => true
  | .ldVxMemI _ => true

end Sys2Proof
end

