-- ==== Sys2Proof/Decode.lean ====
section
/-!
DEFINITION. The decoder (spec/30_encoding.md R70 to R79, R82), total on any word and any bytes, and the encoder (R83).
The opcode map of R75 stands beside them as a list of patterns, which the statements hold the decoder against.
-/

namespace Sys2Proof

/-- Why bytes decode to no instruction. -/
inductive DecodeError where
  /-- The word matches no pattern of R75 (R76). -/
  | unknownOpcode (word : Word)
  /-- Fewer than the two bytes of an instruction word are given (R70). -/
  | truncated (bytes : List Byte)
  deriving DecidableEq, Repr

/-! ## Fields (R71) -/

/-- `fam = word >> 12`. -/
def famField (w : Word) : Nat := (w >>> 12).toNat

/-- `x = (word >> 8) & 0xF`. -/
def xField (w : Word) : RegIx := Fin.ofNat 16 ((w >>> 8) &&& 0xF).toNat

/-- `y = (word >> 4) & 0xF`. -/
def yField (w : Word) : RegIx := Fin.ofNat 16 ((w >>> 4) &&& 0xF).toNat

/-- `n = word & 0xF`. -/
def nField (w : Word) : Nat := (w &&& 0xF).toNat

/-- `kk = word & 0xFF`. -/
def kkField (w : Word) : Byte := (w &&& 0xFF).setWidth 8

/-- `addr = word & 0x0FFF`. -/
def addrField (w : Word) : Nat := (w &&& 0x0FFF).toNat

/-! ## Decoding (R74, R82) -/

/-- Family 0: `00E0` and `00EE` only (R74, R76; D5). -/
def decodeFamily0 (w : Word) : Except DecodeError Instr :=
  if w = 0x00E0 then .ok .cls
  else if w = 0x00EE then .ok .ret
  else .error (.unknownOpcode w)

/-- Family 8 dispatches on the low nibble (R82). -/
def decodeFamily8 (w : Word) : Except DecodeError Instr :=
  let x := xField w
  let y := yField w
  match nField w with
  | 0x0 => .ok (.ldVxVy x y)
  | 0x1 => .ok (.orVxVy x y)
  | 0x2 => .ok (.andVxVy x y)
  | 0x3 => .ok (.xorVxVy x y)
  | 0x4 => .ok (.addVxVy x y)
  | 0x5 => .ok (.subVxVy x y)
  | 0x6 => .ok (.shrVx x y)
  | 0x7 => .ok (.subnVxVy x y)
  | 0xE => .ok (.shlVx x y)
  | _ => .error (.unknownOpcode w)

/-- Family E dispatches on the low byte (R74; D5). -/
def decodeFamilyE (w : Word) : Except DecodeError Instr :=
  if kkField w = 0x9E then .ok (.skpVx (xField w))
  else if kkField w = 0xA1 then .ok (.sknpVx (xField w))
  else .error (.unknownOpcode w)

/-- Family F dispatches on the low byte (R82). -/
def decodeFamilyF (w : Word) : Except DecodeError Instr :=
  let x := xField w
  let kk := kkField w
  if kk = 0x07 then .ok (.ldVxDt x)
  else if kk = 0x0A then .ok (.ldVxK x)
  else if kk = 0x15 then .ok (.ldDtVx x)
  else if kk = 0x18 then .ok (.ldStVx x)
  else if kk = 0x1E then .ok (.addIVx x)
  else if kk = 0x29 then .ok (.ldFVx x)
  else if kk = 0x33 then .ok (.ldBVx x)
  else if kk = 0x55 then .ok (.ldMemIVx x)
  else if kk = 0x65 then .ok (.ldVxMemI x)
  else .error (.unknownOpcode w)

/-- `decode(word)` of R82: the first level is the family nibble. -/
def decode (w : Word) : Except DecodeError Instr :=
  match famField w with
  | 0x0 => decodeFamily0 w
  | 0x1 => .ok (.jpAddr (addrField w))
  | 0x2 => .ok (.callAddr (addrField w))
  | 0x3 => .ok (.seVxKk (xField w) (kkField w))
  | 0x4 => .ok (.sneVxKk (xField w) (kkField w))
  | 0x5 => if nField w = 0 then .ok (.seVxVy (xField w) (yField w)) else .error (.unknownOpcode w)
  | 0x6 => .ok (.ldVxKk (xField w) (kkField w))
  | 0x7 => .ok (.addVxKk (xField w) (kkField w))
  | 0x8 => decodeFamily8 w
  | 0x9 => if nField w = 0 then .ok (.sneVxVy (xField w) (yField w)) else .error (.unknownOpcode w)
  | 0xA => .ok (.ldIAddr (addrField w))
  | 0xB => .ok (.jpV0Addr (addrField w))
  | 0xC => .ok (.rndVxKk (xField w) (kkField w))
  | 0xD => .ok (.drwVxVyN (xField w) (yField w) (nField w))
  | 0xE => decodeFamilyE w
  | 0xF => decodeFamilyF w
  | _ => .error (.unknownOpcode w)

/-- The instruction word of two bytes, the byte at the lower address being the high one (R54, R70). -/
def wordOfBytes (hi lo : Byte) : Word := (hi.setWidth 16 <<< 8) ||| lo.setWidth 16

/-- The first instruction of a byte sequence and the bytes after it; every instruction is two bytes long (R70). -/
def decodeBytes : List Byte → Except DecodeError (Instr × List Byte)
  | hi :: lo :: rest =>
    match decode (wordOfBytes hi lo) with
    | .ok i => .ok (i, rest)
    | .error e => .error e
  | bytes => .error (.truncated bytes)

/-! ## Encoding (R72, R83) -/

/-- A register number placed at `word[11:8]`. -/
def placeX (x : RegIx) : Word := BitVec.ofNat 16 x.val <<< 8

/-- A register number placed at `word[7:4]`. -/
def placeY (y : RegIx) : Word := BitVec.ofNat 16 y.val <<< 4

/-- An 8-bit immediate placed at `word[7:0]`. -/
def placeKk (kk : Byte) : Word := kk.setWidth 16

/-- Format `A`: the match value with the 12-bit address. -/
def encodeA (base : Word) (addr : Nat) : Word := base ||| (BitVec.ofNat 12 addr).setWidth 16

/-- Format `XK`: the match value with a register and a byte. -/
def encodeXK (base : Word) (x : RegIx) (kk : Byte) : Word := base ||| placeX x ||| placeKk kk

/-- Format `XY`: the match value with two registers. -/
def encodeXY (base : Word) (x y : RegIx) : Word := base ||| placeX x ||| placeY y

/-- Format `X`: the match value with a register. -/
def encodeX (base : Word) (x : RegIx) : Word := base ||| placeX x

/-- The word of an instruction: its `match` value of R75 OR-ed with its fields at the positions of R71 (R83). -/
def encode : Instr → Word
  | .cls => 0x00E0
  | .ret => 0x00EE
  | .jpAddr addr => encodeA 0x1000 addr
  | .callAddr addr => encodeA 0x2000 addr
  | .seVxKk x kk => encodeXK 0x3000 x kk
  | .sneVxKk x kk => encodeXK 0x4000 x kk
  | .seVxVy x y => encodeXY 0x5000 x y
  | .ldVxKk x kk => encodeXK 0x6000 x kk
  | .addVxKk x kk => encodeXK 0x7000 x kk
  | .ldVxVy x y => encodeXY 0x8000 x y
  | .orVxVy x y => encodeXY 0x8001 x y
  | .andVxVy x y => encodeXY 0x8002 x y
  | .xorVxVy x y => encodeXY 0x8003 x y
  | .addVxVy x y => encodeXY 0x8004 x y
  | .subVxVy x y => encodeXY 0x8005 x y
  | .shrVx x y => encodeXY 0x8006 x y
  | .subnVxVy x y => encodeXY 0x8007 x y
  | .shlVx x y => encodeXY 0x800E x y
  | .sneVxVy x y => encodeXY 0x9000 x y
  | .ldIAddr addr => encodeA 0xA000 addr
  | .jpV0Addr addr => encodeA 0xB000 addr
  | .rndVxKk x kk => encodeXK 0xC000 x kk
  | .drwVxVyN x y n => encodeXY 0xD000 x y ||| (BitVec.ofNat 4 n).setWidth 16
  | .skpVx x => encodeX 0xE09E x
  | .sknpVx x => encodeX 0xE0A1 x
  | .ldVxDt x => encodeX 0xF007 x
  | .ldVxK x => encodeX 0xF00A x
  | .ldDtVx x => encodeX 0xF015 x
  | .ldStVx x => encodeX 0xF018 x
  | .addIVx x => encodeX 0xF01E x
  | .ldFVx x => encodeX 0xF029 x
  | .ldBVx x => encodeX 0xF033 x
  | .ldMemIVx x => encodeX 0xF055 x
  | .ldVxMemI x => encodeX 0xF065 x

/-- The two bytes of an instruction in memory order, high byte first (R54). -/
def encodeBytes (i : Instr) : List Byte := [(encode i >>> 8).setWidth 8, (encode i).setWidth 8]

/-! ## The opcode map (R75) -/

/-- A row of R75: a word `w` is the instruction when `w & mask = bits`. -/
structure Pattern where
  bits : Word
  mask : Word
  deriving DecidableEq, Repr

/-- The word is an instruction of the pattern. -/
def Pattern.matchesWord (p : Pattern) (w : Word) : Bool := decide (w &&& p.mask = p.bits)

/-- The row of R75 that an instruction stands in. -/
def Instr.pattern : Instr → Pattern
  | .cls => ⟨0x00E0, 0xFFFF⟩
  | .ret => ⟨0x00EE, 0xFFFF⟩
  | .jpAddr _ => ⟨0x1000, 0xF000⟩
  | .callAddr _ => ⟨0x2000, 0xF000⟩
  | .seVxKk _ _ => ⟨0x3000, 0xF000⟩
  | .sneVxKk _ _ => ⟨0x4000, 0xF000⟩
  | .seVxVy _ _ => ⟨0x5000, 0xF00F⟩
  | .ldVxKk _ _ => ⟨0x6000, 0xF000⟩
  | .addVxKk _ _ => ⟨0x7000, 0xF000⟩
  | .ldVxVy _ _ => ⟨0x8000, 0xF00F⟩
  | .orVxVy _ _ => ⟨0x8001, 0xF00F⟩
  | .andVxVy _ _ => ⟨0x8002, 0xF00F⟩
  | .xorVxVy _ _ => ⟨0x8003, 0xF00F⟩
  | .addVxVy _ _ => ⟨0x8004, 0xF00F⟩
  | .subVxVy _ _ => ⟨0x8005, 0xF00F⟩
  | .shrVx _ _ => ⟨0x8006, 0xF00F⟩
  | .subnVxVy _ _ => ⟨0x8007, 0xF00F⟩
  | .shlVx _ _ => ⟨0x800E, 0xF00F⟩
  | .sneVxVy _ _ => ⟨0x9000, 0xF00F⟩
  | .ldIAddr _ => ⟨0xA000, 0xF000⟩
  | .jpV0Addr _ => ⟨0xB000, 0xF000⟩
  | .rndVxKk _ _ => ⟨0xC000, 0xF000⟩
  | .drwVxVyN _ _ _ => ⟨0xD000, 0xF000⟩
  | .skpVx _ => ⟨0xE09E, 0xF0FF⟩
  | .sknpVx _ => ⟨0xE0A1, 0xF0FF⟩
  | .ldVxDt _ => ⟨0xF007, 0xF0FF⟩
  | .ldVxK _ => ⟨0xF00A, 0xF0FF⟩
  | .ldDtVx _ => ⟨0xF015, 0xF0FF⟩
  | .ldStVx _ => ⟨0xF018, 0xF0FF⟩
  | .addIVx _ => ⟨0xF01E, 0xF0FF⟩
  | .ldFVx _ => ⟨0xF029, 0xF0FF⟩
  | .ldBVx _ => ⟨0xF033, 0xF0FF⟩
  | .ldMemIVx _ => ⟨0xF055, 0xF0FF⟩
  | .ldVxMemI _ => ⟨0xF065, 0xF0FF⟩

/-- The 34 rows of R75, in the spec's order. -/
def opcodeMap : List Pattern :=
  [⟨0x00E0, 0xFFFF⟩, ⟨0x00EE, 0xFFFF⟩, ⟨0x1000, 0xF000⟩, ⟨0x2000, 0xF000⟩, ⟨0x3000, 0xF000⟩, ⟨0x4000, 0xF000⟩] ++
  [⟨0x5000, 0xF00F⟩, ⟨0x6000, 0xF000⟩, ⟨0x7000, 0xF000⟩, ⟨0x8000, 0xF00F⟩, ⟨0x8001, 0xF00F⟩, ⟨0x8002, 0xF00F⟩] ++
  [⟨0x8003, 0xF00F⟩, ⟨0x8004, 0xF00F⟩, ⟨0x8005, 0xF00F⟩, ⟨0x8006, 0xF00F⟩, ⟨0x8007, 0xF00F⟩, ⟨0x800E, 0xF00F⟩] ++
  [⟨0x9000, 0xF00F⟩, ⟨0xA000, 0xF000⟩, ⟨0xB000, 0xF000⟩, ⟨0xC000, 0xF000⟩, ⟨0xD000, 0xF000⟩, ⟨0xE09E, 0xF0FF⟩] ++
  [⟨0xE0A1, 0xF0FF⟩, ⟨0xF007, 0xF0FF⟩, ⟨0xF00A, 0xF0FF⟩, ⟨0xF015, 0xF0FF⟩, ⟨0xF018, 0xF0FF⟩, ⟨0xF01E, 0xF0FF⟩] ++
  [⟨0xF029, 0xF0FF⟩, ⟨0xF033, 0xF0FF⟩, ⟨0xF055, 0xF0FF⟩, ⟨0xF065, 0xF0FF⟩]

/-! ## The host's view of a table word -/

/-- The bytes of a table word in memory order: the one word of every instruction, high byte first (R54, R70). Bits of `w`
above `nbits` are 0. -/
def tableBytes (nbits w : Nat) : List Byte :=
  let word : Word := BitVec.ofNat 16 (w % 2 ^ nbits)
  [(word >>> 8).setWidth 8, word.setWidth 8]

/-- The instruction the decoder reads from a table word (notes/assumptions/17.md). -/
def decodeTableWord (nbits w : Nat) : Option Instr :=
  match decodeBytes (tableBytes nbits w) with
  | .ok (i, _) => some i
  | .error _ => none

end Sys2Proof
end

