-- ==== Sys2Proof/Config.lean ====
section
/-!
DEFINITION. What the spec leaves to the build or to the environment: the parameters of spec/00_scope.md R6.
The ratio `N`, the font and the free random bytes are opaque: no proof can see their value, so a theorem about them holds for
every value (notes/assumptions/1.md, 2.md, 3.md).
-/

namespace Sys2Proof

/-- The parameters of one run that the step takes as arguments (R6 (1) and (4)). -/
structure Config where
  /-- `N`, the number of successful `Step`s per timer tick. -/
  cyclesPerTick : Nat
  /-- `N` is a positive integer. -/
  cyclesPerTick_pos : 0 < cyclesPerTick
  /-- `FONT_REGION_GUARD`, default off (spec/93_implementation_defined.md U1). -/
  fontRegionGuard : Bool

namespace Config

/-- `N - 1` of the build at hand: `N` is a positive integer and no source gives it (R6, D7). -/
opaque ratioPred : Nat

/-- `FONT[0..79]`: the source gives the size and the layout of the font table and none of its bytes (R6, R52, D11). -/
opaque font : Vector Byte 80

/-- The environment's byte for a draw whose value is not in `State.drawQueue`: any of the 256 values (R142, R143, D12). -/
opaque freeByte : Nat → Byte

/-- The build at hand: `N` free, the font-region guard off (R6: "default off"). -/
def machine : Config :=
  { cyclesPerTick := ratioPred + 1
    cyclesPerTick_pos := Nat.succ_pos ratioPred
    fontRegionGuard := false }

/-- The customary font table of spec/20_memory.md R52, which the spec marks as general knowledge. PRESUMED: no definition of the
machine uses it; it serves tests and claims that name it as their `FONT` (notes/assumptions/2.md). -/
def customaryFont : List Byte :=
  [0xF0, 0x90, 0x90, 0x90, 0xF0,  0x20, 0x60, 0x20, 0x20, 0x70,
   0xF0, 0x10, 0xF0, 0x80, 0xF0,  0xF0, 0x10, 0xF0, 0x10, 0xF0] ++
  [0x90, 0x90, 0xF0, 0x10, 0x10,  0xF0, 0x80, 0xF0, 0x10, 0xF0,
   0xF0, 0x80, 0xF0, 0x90, 0xF0,  0xF0, 0x10, 0x20, 0x40, 0x40] ++
  [0xF0, 0x90, 0xF0, 0x90, 0xF0,  0xF0, 0x90, 0xF0, 0x10, 0xF0,
   0xF0, 0x90, 0xF0, 0x90, 0x90,  0xE0, 0x90, 0xE0, 0x90, 0xE0] ++
  [0xF0, 0x80, 0x80, 0x80, 0xF0,  0xE0, 0x90, 0x90, 0x90, 0xE0,
   0xF0, 0x80, 0xF0, 0x80, 0xF0,  0xF0, 0x80, 0xF0, 0x80, 0x80]

end Config

end Sys2Proof
end

