-- ==== Sys2Proof/Machine/State.lean ====
section
/-!
DEFINITION. The state of the machine (spec/10_state.md R34) as plain data, the reasons a step stops, and the state after reset.
`ArchState` is R34's list and nothing else. `State` is what a step transforms: R34's list, the output event sequence of
spec/60_exceptions.md R226, and the environment's draws of spec/42_index_jump_random.md R143, which are an input of the machine and
none of its state (spec/00_scope.md R11; notes/assumptions/3.md, 10.md).
-/

namespace Sys2Proof.Machine

/-- Memory as address and byte pairs in the canonical form `Memory.wf` (Machine/Ops.lean); what an unlisted address reads as is
`Memory.unlisted`. -/
abbrev Memory := List Host.Cell

/-- The display: 32 rows (`r`, the y coordinate) of 64 columns (`c`, the x coordinate), one bit per cell (R30). -/
abbrev Display := Vector (Vector Bool 64) 32

/-- An event of the sound output (spec/60_exceptions.md R226, spec/47_step_cycle.md R201). -/
inductive SoundEvent where
  /-- `SoundOn`, the notification with `true`. -/
  | soundOn
  /-- `SoundOff`, the notification with `false`. -/
  | soundOff
  deriving DecidableEq, Repr

/-- The state of the machine, exactly the list of R34 (spec/00_scope.md R11, R37). -/
structure ArchState where
  /-- `V[0]` to `V[15]`; `V[15]` is `VF` (R20, R21). -/
  v : Vector Byte 16
  /-- `I`, the address register (R22). -/
  i : Word
  /-- `PC`, the program counter (R23). -/
  pc : Word
  /-- `STACK[0]` to `STACK[15]`, the return addresses (R24). -/
  stack : Vector Word 16
  /-- `SP`, 0 to 16: the number of return addresses held (R25). -/
  sp : Fin 17
  /-- `DT`, the delay timer (R26). -/
  dt : Byte
  /-- `ST`, the sound timer (R27). -/
  st : Byte
  /-- `CYC`, the successful `Step`s since the last timer tick (R28). -/
  cyc : Nat
  /-- `TONE`, whether the last sound event was "on" (R29). -/
  tone : Bool
  /-- `DISP[r][c]` (R30). -/
  disp : Display
  /-- `KEYS[k]`, whether key `k` is down (R31). -/
  keys : Vector Bool 16
  /-- `LRK`, the last released key, or none (R32). -/
  lrk : Option KeyNum
  /-- `MEM[a]` (R33). -/
  mem : Memory
  deriving DecidableEq, Repr

/-- What a step transforms: the state of the machine, and beside it the model's own record of the machine's output and of the
environment's input, which a step must be handed because it takes no other argument. -/
structure State extends ArchState where
  /-- The model's own: the sound events emitted so far, oldest first (R226). -/
  events : List SoundEvent
  /-- The model's own: the bytes the environment supplies to the next draws, in order (R143). -/
  drawQueue : List Byte
  /-- The model's own: the number of draws made so far, which numbers the free byte of a draw that `drawQueue` does not supply
  (R142). -/
  drawCount : Nat
  deriving DecidableEq, Repr

/-- Why a step stops (spec/60_exceptions.md R210). A fault changes no state (R211), so it carries none. -/
inductive Fault where
  /-- Raised by the decode stage of a `Step` when the word matches no pattern (R212). The source defines this fault. Safe for the
  words of R77, which the machine might execute: the model stops where it may go on. -/
  | unknownOpcode (word : Word)
  /-- Raised by `2nnn` when `SP` is 16 (R103, R213). Safe: the model stops where the machine may wrap. -/
  | stackOverflow
  /-- Raised by `00EE` when `SP` is 0 (R101, R213). Safe: the model stops where the machine may wrap. -/
  | stackUnderflow
  /-- Raised by the fetch, `Dxyn`, `Fx33`, `Fx55` and `Fx65` when a byte they access lies above 0xFFF; `a` is the lowest such
  address (R56, R214). Safe: the spec gives the access no meaning. -/
  | addressOutOfRange (a : Nat)
  /-- Raised only where `Config.fontRegionGuard` is on, by a fetch from below 0x200 and by an `Fx33` or `Fx55` that stores below
  0x200; `a` is the lowest such address (spec/93_implementation_defined.md U1). Safe: the guard only removes behaviours. With the
  guard off, as in `Config.machine`, nothing raises it. -/
  | fontRegionAliased (a : Nat)
  deriving DecidableEq, Repr

/-- What the spec gives no meaning to (spec/70_reset_and_hazards.md R252). -/
inductive Refusal where
  /-- An instruction without a meaning in this model: no arm of `exec` answers it. Safe. -/
  | notModelled (mnemonic : String)
  /-- Raised by the host operation `Load` after a `Step` or after another `Load` (spec/47_step_cycle.md R197, D17). Safe. -/
  | loadNotFirst
  /-- Raised by the host operation `Load` of more than 3584 bytes (R198, D17). Safe. -/
  | imageTooLong
  /-- Raised by the host operation `Load` whose source could not be read (R198, U3). Safe. -/
  | loadFailed
  /-- Raised by the host operation `SetKeyState` with a key number above 15 (R200, D16). Safe. -/
  | keyOutOfRange
  deriving DecidableEq, Repr

/-- The answer of an instruction and of a step. -/
abbrev Result := Host.Outcome State Fault Refusal

/-- The state after `Reset` (R34, R240): every field zero but `PC`; memory lists nothing, so it reads as its reset contents. -/
def ArchState.reset : ArchState :=
  { v := Vector.replicate 16 0
    i := 0
    pc := 0x200
    stack := Vector.replicate 16 0
    sp := 0
    dt := 0
    st := 0
    cyc := 0
    tone := false
    disp := Vector.replicate 32 (Vector.replicate 64 false)
    keys := Vector.replicate 16 false
    lrk := none
    mem := [] }

/-- A newly constructed machine in an environment that has supplied the bytes `drawQueue` and has been drawn from `drawCount` times.
No event is emitted yet (spec/70_reset_and_hazards.md R242). Construction has no hold on the environment (R143). -/
def State.constructed (drawQueue : List Byte) (drawCount : Nat) : State :=
  { toArchState := ArchState.reset
    events := []
    drawQueue := drawQueue
    drawCount := drawCount }

/-- The machine right after reset, in an environment from which nothing has been drawn (notes/assumptions/3.md, 10.md). -/
def State.reset : State := State.constructed [] 0

end Sys2Proof.Machine
end

