-- ==== Sys2Proof/Machine/Ops.lean ====
section
/-!
DEFINITION. The named operations over memory, registers, stack, display and draws, and the raising of a fault.
Rules: spec/20_memory.md R50 to R57, spec/10_state.md R20 to R25, spec/60_exceptions.md R211, R216.
-/

namespace Sys2Proof.Machine

/-! ## Memory -/

/-- What an address that memory does not list reads as: the reset contents, the font table at 0x000 to 0x04F and 0 elsewhere
(R34, R52). -/
def Memory.unlisted (a : Nat) : Byte :=
  if h : a < 80 then Config.font[a] else 0

/-- The canonical form: addresses strictly rising and inside the 4096 cells (R50), no entry equal to what an unlisted address
reads as. -/
abbrev Memory.wf (m : Memory) : Prop :=
  m.Pairwise (fun c d => c.1 < d.1) ∧ ∀ c ∈ m, c.1 < 0x1000 ∧ c.2 ≠ Memory.unlisted c.1

/-- `MEM[a]` (R55). -/
def Memory.read : Memory → Nat → Byte
  | [], a => Memory.unlisted a
  | c :: m, a => if c.1 = a then c.2 else Memory.read m a

/-- The entry for address `a`, or none where the byte is what an unlisted address reads as. -/
def Memory.entry (a : Nat) (b : Byte) (m : Memory) : Memory :=
  if b = Memory.unlisted a then m else (a, b) :: m

/-- `MEM[a] <- b` (R55), keeping the canonical form. -/
def Memory.write : Memory → Nat → Byte → Memory
  | [], a, b => Memory.entry a b []
  | c :: m, a, b =>
    if c.1 < a then c :: Memory.write m a b
    else if c.1 = a then Memory.entry a b m
    else Memory.entry a b (c :: m)

/-- Bytes written one after another at ascending addresses from `a` (R55). -/
def Memory.writeBytes : Memory → Nat → List Byte → Memory
  | m, _, [] => m
  | m, a, b :: bs => Memory.writeBytes (Memory.write m a b) (a + 1) bs

/-- `MemRead(a, 1)` (R55). -/
def State.readByte (s : State) (a : Nat) : Byte := s.mem.read a

/-- `MemWrite` of successive bytes from address `a` (R55). -/
def State.writeBytes (s : State) (a : Nat) (bs : List Byte) : State := { s with mem := s.mem.writeBytes a bs }

/-! ## General registers (R20) -/

/-- `V[x]`. -/
def State.reg (s : State) (x : RegIx) : Byte := s.v[x]

/-- `V[x] <- b`. No register is hard-wired (R20). -/
def State.setReg (s : State) (x : RegIx) (b : Byte) : State := { s with v := s.v.set x b }

/-! ## Program counter (R23, R192) -/

/-- `PC <- (PC + k) mod 2^16`. -/
def State.advance (s : State) (k : Word) : State := { s with pc := s.pc + k }

/-- `PC <- t`. -/
def State.setPc (s : State) (t : Word) : State := { s with pc := t }

/-- The advance of a skip: 4 when the condition holds, else 2 (R192). -/
def State.skipIf (s : State) (cond : Bool) : State := s.advance (if cond then 4 else 2)

/-! ## Stack (R24, R25) -/

/-- `STACK[k]`. -/
def State.slot (s : State) (k : Fin 16) : Word := s.stack[k]

/-- `STACK[SP] <- w; SP <- SP + 1`, for a stack that is not full. -/
def State.push (s : State) (w : Word) (h : s.sp.val < 16) : State :=
  { s with stack := s.stack.set s.sp.val w h, sp := ⟨s.sp.val + 1, by omega⟩ }

/-- The slot that a return reads, `STACK[SP - 1]`, for a stack that is not empty. -/
def State.topSlot (s : State) (h : 0 < s.sp.val) : Word := s.slot ⟨s.sp.val - 1, by omega⟩

/-- `SP <- SP - 1`, for a stack that is not empty. The slot keeps its value (R101). -/
def State.pop (s : State) (h : 0 < s.sp.val) : State := { s with sp := ⟨s.sp.val - 1, by omega⟩ }

/-! ## Display (R30) -/

/-- `DISP[r][c]`. -/
def Display.cell (d : Display) (r : Fin 32) (c : Fin 64) : Bool := (d[r])[c]

/-- `DISP[r][c] <- DISP[r][c] ^ 1`. -/
def Display.toggle (d : Display) (r : Fin 32) (c : Fin 64) : Display := d.set r ((d[r]).set c (!(d[r])[c]))

/-- The display with all cells 0 (R100). -/
def Display.clear : Display := Vector.replicate 32 (Vector.replicate 64 false)

/-! ## Draws (R142, R143) -/

/-- `draw_byte()`: the environment's next byte, or, where the environment has supplied none, a byte of which nothing is known. -/
def State.drawByte (s : State) : Byte :=
  match s.drawQueue with
  | r :: _ => r
  | [] => Config.freeByte s.drawCount

/-- The state after a draw: the supplied byte is used up, and the next free byte is a fresh one. -/
def State.consumeDraw (s : State) : State :=
  { s with drawQueue := s.drawQueue.tail, drawCount := s.drawCount + 1 }

/-! ## Faults (R211, R215, R216, R217) -/

/-- `raise F(info)`: the step ends with the fault and changes no state at all (R211). The machine has no trap entry and no return
from a trap: a fault saves nothing, masks nothing and transfers control nowhere (R216, R217), so this is the whole of taking one. -/
def raise (f : Fault) : Result := .fault f

/-- Some byte of an access to `n` bytes from `base` lies above 0xFFF (R56). The effective address is an unbounded sum. -/
def outOfRange (base n : Nat) : Bool := decide (n ≠ 0 ∧ base + n - 1 > 0xFFF)

/-- The lowest address above 0xFFF of an out-of-range access from `base` (R56). -/
def lowestBadAddress (base : Nat) : Nat := max base 0x1000

/-- An instruction that accesses `n` bytes from `base`: the range check comes before any state is changed (R56, R211). -/
def accessing (base n : Nat) (after : State) : Result :=
  if outOfRange base n then raise (.addressOutOfRange (lowestBadAddress base)) else .next after

end Sys2Proof.Machine
end

