-- ==== Sys2Proof/Machine/Operands.lean ====
section
/-!
DEFINITION. The operand forms of spec/30_encoding.md R73 and of the instruction rules: a register, a key number, an address
immediate, a glyph address, the register block, the decimal digits, and the rows of a sprite.
-/

namespace Sys2Proof.Machine

/-- `addr` written into the 16-bit `PC` or `I`, the top bits 0 (R73). -/
def addrOperand (addr : Nat) : Word := BitVec.ofNat 16 addr

/-- A register zero-extended to 16 bits, as `Bnnn` and `Fx1E` add it (R73, R174). -/
def State.regWide (s : State) (x : RegIx) : Word := (s.reg x).setWidth 16

/-- The key numbered by `V[x] & 0xF` (spec/44_keypad.md R160). -/
def State.keyOperand (s : State) (x : RegIx) : KeyNum := Fin.ofNat 16 (s.reg x &&& 0xF).toNat

/-- `KEYS[k]` (R31). -/
def State.keyDown (s : State) (k : KeyNum) : Bool := s.keys[k]

/-- The address of the glyph for the low nibble of a byte, `(b & 0xF) * 5` (spec/45_family_f.md R175). -/
def glyphAddress (b : Byte) : Word := (b &&& 0xF).setWidth 16 * 5

/-- The hundreds, tens and ones of a byte, each as a byte (R176). -/
def decimalDigits (b : Byte) : List Byte :=
  [BitVec.ofNat 8 (b.toNat / 100), BitVec.ofNat 8 (b.toNat / 10 % 10), BitVec.ofNat 8 (b.toNat % 10)]

/-- The effective address of a data access: the value of `I` as a natural number (R56, R180). -/
def State.dataAddress (s : State) : Nat := s.i.toNat

/-- `V[0]` to `V[x]`, in ascending order (R177). -/
def State.regBlock (s : State) (x : RegIx) : List Byte := s.v.toList.take (x.val + 1)

/-- The registers after `V[0]` to `V[x]` are loaded with the bytes from address `base` upward (R178). -/
def State.loadedRegs (s : State) (x : RegIx) (base : Nat) : Vector Byte 16 :=
  Vector.ofFn fun r : Fin 16 => if r.val ≤ x.val then s.readByte (base + r.val) else s.v[r]

/-- `V[i] <- MemRead(base + i, 1)` for `i` in 0 to `x` (R178). -/
def State.loadRegBlock (s : State) (x : RegIx) (base : Nat) : State := { s with v := s.loadedRegs x base }

/-- The display row of sprite row `row` drawn from `startY`: rows wrap modulo 32 (spec/43_draw.md R151). -/
def spriteRow (startY : Byte) (row : Nat) : Fin 32 := Fin.ofNat 32 (startY.toNat + row)

/-- The display column of sprite column `col` drawn from `startX`: columns wrap modulo 64 (R151). -/
def spriteColumn (startX : Byte) (col : Nat) : Fin 64 := Fin.ofNat 64 (startX.toNat + col)

/-- The sprite bit of column `col` in a row's byte: bit 7 is column 0 (R151, D13). -/
def spriteBit (b : Byte) (col : Nat) : Bool := b.getLsbD (7 - col)

end Sys2Proof.Machine
end

