-- ==== Sys2Proof/Machine/Flags.lean ====
section
/-!
DEFINITION. The flag `VF` (spec/10_state.md R21, R38): what sets it and how it is written, always last (spec/41_alu.md R132).
-/

namespace Sys2Proof.Machine

/-- The number of the flag register, `VF` = `V[15]` (R21). -/
def flagReg : RegIx := 15

/-- A flag as the byte 0 or 1 (R21). -/
def flagByte (f : Bool) : Byte := if f then 1 else 0

/-- Carry: the unsigned sum exceeds 255 (R126). -/
def carryFlag (a b : Byte) : Bool := decide (a.toNat + b.toNat > 255)

/-- Not borrow of `a - b`: `a >= b` (R127, R129). -/
def notBorrowFlag (a b : Byte) : Bool := decide (a.toNat ≥ b.toNat)

/-- The bit that a right shift moves out, bit 0 (R128). -/
def shiftedOutRight (a : Byte) : Bool := a.getLsbD 0

/-- The bit that a left shift moves out, bit 7 (R130). -/
def shiftedOutLeft (a : Byte) : Bool := a.getLsbD 7

/-- `V[15] <- f`. -/
def State.setFlag (s : State) (f : Bool) : State := s.setReg flagReg (flagByte f)

/-- The two writes of a flag-setting operation: the result into `V[x]`, then the flag into `V[15]` (R132). -/
def State.setRegThenFlag (s : State) (x : RegIx) (result : Byte) (f : Bool) : State := (s.setReg x result).setFlag f

end Sys2Proof.Machine
end

