-- ==== Sys2Proof/Machine/Alu.lean ====
section
/-!
DEFINITION. Families 6, 7, 8: immediate load and add, register-register operations (spec/41_alu.md). Arithmetic is modulo 256
and unsigned (R131). Operands are read before anything is written, and the flag is written last (R132).
-/

namespace Sys2Proof.Machine

/-- An operation with a result and no flag: `V[x] <- result`, then the advance (R120 to R125). -/
def plainResult (s : State) (x : RegIx) (result : Byte) : Result := .next ((s.setReg x result).advance 2)

/-- An operation with a result and a flag: `V[x] <- result`, `V[15] <- flag`, then the advance (R126 to R130, R132). -/
def flaggedResult (s : State) (x : RegIx) (result : Byte) (flag : Bool) : Result :=
  .next ((s.setRegThenFlag x result flag).advance 2)

/-- `6xkk` (R120). -/
def execLdVxKk (x : RegIx) (kk : Byte) (s : State) : Result := plainResult s x kk

/-- `7xkk` (R121): no flag. -/
def execAddVxKk (x : RegIx) (kk : Byte) (s : State) : Result := plainResult s x (s.reg x + kk)

/-- `8xy0` (R122). -/
def execLdVxVy (x y : RegIx) (s : State) : Result := plainResult s x (s.reg y)

/-- `8xy1` (R123). -/
def execOrVxVy (x y : RegIx) (s : State) : Result := plainResult s x (s.reg x ||| s.reg y)

/-- `8xy2` (R124). -/
def execAndVxVy (x y : RegIx) (s : State) : Result := plainResult s x (s.reg x &&& s.reg y)

/-- `8xy3` (R125). -/
def execXorVxVy (x y : RegIx) (s : State) : Result := plainResult s x (s.reg x ^^^ s.reg y)

/-- `8xy4` (R126). -/
def execAddVxVy (x y : RegIx) (s : State) : Result :=
  flaggedResult s x (s.reg x + s.reg y) (carryFlag (s.reg x) (s.reg y))

/-- `8xy5` (R127). -/
def execSubVxVy (x y : RegIx) (s : State) : Result :=
  flaggedResult s x (s.reg x - s.reg y) (notBorrowFlag (s.reg x) (s.reg y))

/-- `8xy6` (R128): shifts `V[x]` in place and ignores `y`. -/
def execShrVx (x _y : RegIx) (s : State) : Result :=
  flaggedResult s x (s.reg x >>> 1) (shiftedOutRight (s.reg x))

/-- `8xy7` (R129). -/
def execSubnVxVy (x y : RegIx) (s : State) : Result :=
  flaggedResult s x (s.reg y - s.reg x) (notBorrowFlag (s.reg y) (s.reg x))

/-- `8xyE` (R130): shifts `V[x]` in place and ignores `y`. -/
def execShlVx (x _y : RegIx) (s : State) : Result :=
  flaggedResult s x (s.reg x <<< 1) (shiftedOutLeft (s.reg x))

end Sys2Proof.Machine
end

