-- ==== Sys2Proof/Machine/Control.lean ====
section
/-!
DEFINITION. Families 0, 1, 2, 3, 4, 5, 9: clear, return, jump, call, skips (spec/40_control.md).
-/

namespace Sys2Proof.Machine

/-- `00E0` (R100). -/
def execCls (s : State) : Result := .next ({ s with disp := Display.clear }.advance 2)

/-- `00EE` (R101): the slot holds the address of the call, so the return adds 2 (D4). -/
def execRet (s : State) : Result :=
  if h : 0 < s.sp.val then .next ((s.pop h).setPc (s.topSlot h + 2)) else raise .stackUnderflow

/-- `1nnn` (R102). -/
def execJpAddr (addr : Nat) (s : State) : Result := .next (s.setPc (addrOperand addr))

/-- `2nnn` (R103): the slot receives the address of this instruction (D4). -/
def execCallAddr (addr : Nat) (s : State) : Result :=
  if h : s.sp.val < 16 then .next ((s.push s.pc h).setPc (addrOperand addr)) else raise .stackOverflow

/-- `3xkk` (R104). -/
def execSeVxKk (x : RegIx) (kk : Byte) (s : State) : Result := .next (s.skipIf (s.reg x == kk))

/-- `4xkk` (R105). -/
def execSneVxKk (x : RegIx) (kk : Byte) (s : State) : Result := .next (s.skipIf (s.reg x != kk))

/-- `5xy0` (R106). -/
def execSeVxVy (x y : RegIx) (s : State) : Result := .next (s.skipIf (s.reg x == s.reg y))

/-- `9xy0` (R107). -/
def execSneVxVy (x y : RegIx) (s : State) : Result := .next (s.skipIf (s.reg x != s.reg y))

end Sys2Proof.Machine
end

