-- ==== Sys2Proof/Machine/Draw.lean ====
section
/-!
DEFINITION. Family D: the sprite draw (spec/43_draw.md R151).
-/

namespace Sys2Proof.Machine

/-- One sprite bit: a 1 toggles the cell, and a cell that was 1 is a collision (R151). -/
def drawBit (r : Fin 32) (c : Fin 64) (bit : Bool) (dc : Display × Bool) : Display × Bool :=
  if bit then (dc.1.toggle r c, dc.2 || dc.1.cell r c) else dc

/-- One sprite row: the eight bits of its byte, column 0 first (R151). -/
def drawRow (b : Byte) (startX : Byte) (r : Fin 32) (dc : Display × Bool) : Display × Bool :=
  (List.range 8).foldl (fun dc col => drawBit r (spriteColumn startX col) (spriteBit b col) dc) dc

/-- The display after a sprite of `n` rows from address `base` is drawn, and whether any cell went from 1 to 0 (R151, R152). -/
def drawSprite (m : Memory) (base : Nat) (startX startY : Byte) (n : Nat) (d : Display) : Display × Bool :=
  (List.range n).foldl (fun dc row => drawRow (m.read (base + row)) startX (spriteRow startY row) dc) (d, false)

/-- `Dxyn` (R151): the coordinates are read before `VF` is written; nothing is drawn where a sprite byte lies above 0xFFF. -/
def execDrwVxVyN (x y : RegIx) (n : Nat) (s : State) : Result :=
  let drawn := drawSprite s.mem s.dataAddress (s.reg x) (s.reg y) n s.disp
  accessing s.dataAddress n (({ s with disp := drawn.1 }.setFlag drawn.2).advance 2)

end Sys2Proof.Machine
end

