-- ==== Sys2Proof/Machine/FamilyF.lean ====
section
/-!
DEFINITION. Family F: timers, key wait, address register arithmetic, font, decimal digits, register block store and load
(spec/45_family_f.md). `I` is not changed by `Fx33`, `Fx55`, `Fx65` (D15).
-/

namespace Sys2Proof.Machine

/-- `Fx07` (R170). -/
def execLdVxDt (x : RegIx) (s : State) : Result := .next ((s.setReg x s.dt).advance 2)

/-- `Fx0A` (R171): without a released key nothing changes, `PC` included, and the step succeeds; with one, its number goes to `V[x]`
and the marker is cleared. -/
def execLdVxK (x : RegIx) (s : State) : Result :=
  match s.lrk with
  | none => .next s
  | some k => .next (({ s with lrk := none }.setReg x (BitVec.ofNat 8 k.val)).advance 2)

/-- `Fx15` (R172). -/
def execLdDtVx (x : RegIx) (s : State) : Result := .next ({ s with dt := s.reg x }.advance 2)

/-- `Fx18` (R173): emits no event and leaves `TONE` alone. -/
def execLdStVx (x : RegIx) (s : State) : Result := .next ({ s with st := s.reg x }.advance 2)

/-- `Fx1E` (R174): modulo 2^16 (D14), no flag. -/
def execAddIVx (x : RegIx) (s : State) : Result := .next ({ s with i := s.i + s.regWide x }.advance 2)

/-- `Fx29` (R175). -/
def execLdFVx (x : RegIx) (s : State) : Result := .next ({ s with i := glyphAddress (s.reg x) }.advance 2)

/-- `Fx33` (R176). -/
def execLdBVx (x : RegIx) (s : State) : Result :=
  accessing s.dataAddress 3 ((s.writeBytes s.dataAddress (decimalDigits (s.reg x))).advance 2)

/-- `Fx55` (R177). -/
def execLdMemIVx (x : RegIx) (s : State) : Result :=
  accessing s.dataAddress (x.val + 1) ((s.writeBytes s.dataAddress (s.regBlock x)).advance 2)

/-- `Fx65` (R178). -/
def execLdVxMemI (x : RegIx) (s : State) : Result :=
  accessing s.dataAddress (x.val + 1) ((s.loadRegBlock x s.dataAddress).advance 2)

end Sys2Proof.Machine
end

