-- ==== Sys2Proof/Machine/IndexJumpRandom.lean ====
section
/-!
DEFINITION. Families A, B, C: load the address register, indexed jump, random (spec/42_index_jump_random.md).
-/

namespace Sys2Proof.Machine

/-- `Annn` (R140). -/
def execLdIAddr (addr : Nat) (s : State) : Result := .next ({ s with i := addrOperand addr }.advance 2)

/-- `Bnnn` (R141): always `V[0]`; the sum is not reduced modulo 4096 (D14). -/
def execJpV0Addr (addr : Nat) (s : State) : Result := .next (s.setPc (addrOperand addr + s.regWide 0))

/-- `Cxkk` (R142). -/
def execRndVxKk (x : RegIx) (kk : Byte) (s : State) : Result :=
  .next ((s.consumeDraw.setReg x (s.drawByte &&& kk)).advance 2)

end Sys2Proof.Machine
end

