-- ==== Sys2Proof/Machine/Keypad.lean ====
section
/-!
DEFINITION. Family E: skip on key state (spec/44_keypad.md).
-/

namespace Sys2Proof.Machine

/-- `Ex9E` (R160). -/
def execSkpVx (x : RegIx) (s : State) : Result := .next (s.skipIf (s.keyDown (s.keyOperand x)))

/-- `ExA1` (R161). -/
def execSknpVx (x : RegIx) (s : State) : Result := .next (s.skipIf (!s.keyDown (s.keyOperand x)))

end Sys2Proof.Machine
end

