-- ==== Sys2Proof/Machine/Timer.lean ====
section
/-!
DEFINITION. The timer countdown chain (spec/60_exceptions.md R222 to R226): the cycle counter, the two timers, the sound edges.
-/

namespace Sys2Proof.Machine

/-- A timer counts down by 1 when nonzero and stays at 0 (R224). -/
def countDown (t : Byte) : Byte := if t = 0 then 0 else t - 1

/-- Stage 1 of the tick: the on-check (R224, R225). -/
def soundOnCheck (s : State) : State :=
  if s.st ≠ 0 ∧ s.tone = false then { s with tone := true, events := s.events ++ [.soundOn] } else s

/-- Stage 2 of the tick: both timers count down, each on its own (R224). -/
def countTimers (s : State) : State := { s with dt := countDown s.dt, st := countDown s.st }

/-- Stage 3 of the tick: the off-check (R224, R225). -/
def soundOffCheck (s : State) : State :=
  if s.st = 0 ∧ s.tone = true then { s with tone := false, events := s.events ++ [.soundOff] } else s

/-- `TimerTick()` (R224). -/
def timerTick (s : State) : State := soundOffCheck (countTimers (soundOnCheck s))

/-- Stage 4 of a `Step` (R190, R223): `CYC <- CYC + 1`; on reaching `N`, `CYC <- 0` and the tick. Written field by field, so that
every field the chain does not touch is read off without knowing `N`; `countCycle_eq` (Laws/Timer.lean) says it in R223's words. -/
def countCycle (N : Nat) (s : State) : State :=
  let ticked := timerTick s
  let due := decide (s.cyc + 1 = N)
  { s with
    cyc := bif due then 0 else s.cyc + 1
    dt := bif due then ticked.dt else s.dt
    st := bif due then ticked.st else s.st
    tone := bif due then ticked.tone else s.tone
    events := bif due then ticked.events else s.events }

end Sys2Proof.Machine
end

