-- ==== Sys2Proof/Machine/Cycle.lean ====
section
/-!
DEFINITION. One `Step` over the parameters of spec/00_scope.md R6: fetch, decode, execute, count (spec/47_step_cycle.md R190),
with the optional font-region guard (spec/93_implementation_defined.md U1).
-/

namespace Sys2Proof.Machine

/-- The word at `PC`, big-endian (spec/20_memory.md R54). -/
def State.wordAtPc (s : State) : Word := wordOfBytes (s.readByte s.pc.toNat) (s.readByte (s.pc.toNat + 1))

/-- The fetch guard: a fetch from below 0x200 (U1). -/
def fetchAliasesFont (c : Config) (s : State) : Bool := c.fontRegionGuard && decide (s.pc.toNat < 0x200)

/-- The store guard: an `Fx33` or `Fx55` whose target range meets 0x000 to 0x1FF (U1). Ranges ascend from `I`, so one meets the
region exactly when it begins in it. -/
def storeAliasesFont (c : Config) (i : Instr) (s : State) : Bool :=
  match i with
  | .ldBVx _ => c.fontRegionGuard && decide (s.dataAddress < 0x200)
  | .ldMemIVx _ => c.fontRegionGuard && decide (s.dataAddress < 0x200)
  | _ => false

/-- Stage 1 (R190, R191): the word at `PC`, or the fault of a fetch above 0xFFF. -/
def fetch (c : Config) (s : State) : Except Fault Word :=
  if outOfRange s.pc.toNat 2 then .error (.addressOutOfRange (lowestBadAddress s.pc.toNat))
  else if fetchAliasesFont c s then .error (.fontRegionAliased s.pc.toNat)
  else .ok s.wordAtPc

/-- Stages 3 and 4 (R190): the handler, then the count where it succeeds. -/
def execAndCount (c : Config) (i : Instr) (s : State) : Result :=
  if storeAliasesFont c i s then raise (.fontRegionAliased s.dataAddress)
  else
    match exec i s with
    | .next t => .next (countCycle c.cyclesPerTick t)
    | .fault f => .fault f
    | .refused r => .refused r

/-- `Step()` (R190). The first check that fails is reported (R215), and a step that raises changes nothing (R211). -/
def stepWith (c : Config) (s : State) : Result :=
  match fetch c s with
  | .error f => raise f
  | .ok w =>
    match decode w with
    | .error _ => raise (.unknownOpcode w)
    | .ok i => execAndCount c i s

/-- The state whose `PC` can be fetched from: `s` itself, or, where `PC` lies above 0xFFE, `s` with `PC` at the entry point. -/
def State.fetchable (s : State) : State := if s.pc.toNat > 0xFFE then s.setPc 0x200 else s

/-- The state with a table word's bytes at `PC` (notes/assumptions/17.md). -/
def placeTableWord (s : State) (nbits w : Nat) : State :=
  s.fetchable.writeBytes s.fetchable.pc.toNat (tableBytes nbits w)

end Sys2Proof.Machine
end

