-- ==== Sys2Proof/Machine/Step.lean ====
section
/-!
DEFINITION. The step of the build at hand (spec/47_step_cycle.md R190), and the placing of a word where it fetches.
-/

namespace Sys2Proof.Machine

/-- `Step()` with the parameters of `Config.machine`. -/
def step (s : State) : Host.Outcome State Fault Refusal := stepWith Config.machine s

/-- `s` with the instruction word `w` stored at the `PC` the next step fetches from (notes/assumptions/17.md). -/
def State.withFetchWord (s : State) (nbits w : Nat) : State := placeTableWord s nbits w

end Sys2Proof.Machine
end

