-- ==== Sys2Proof/Machine/HostInterface.lean ====
section
/-!
DEFINITION. The host's operations between steps (spec/47_step_cycle.md R195 to R203, spec/70_reset_and_hazards.md R243, R252):
`Reset`, `Load`, `Step`, `SetKeyState`, `Display`, the bytes the environment supplies to draws (spec/00_scope.md R10,
spec/42_index_jump_random.md R143), and a run as a sequence of them.
-/

namespace Sys2Proof.Machine

/-! ## The operations on the state -/

/-- `Reset`: the old machine is discarded and a new one constructed, every element of R34 at its reset value (R196). The environment
is no part of the machine: what it has supplied stays supplied, and its next free byte is a fresh one (R143). -/
def State.reconstruct (s : State) : State := State.constructed s.drawQueue s.drawCount

/-- The environment supplies the bytes of further draws, after those it has supplied before (R143). -/
def State.supplyDraws (s : State) (bytes : List Byte) : State := { s with drawQueue := s.drawQueue ++ bytes }

/-- The memory with the font table at 0x000 to 0x04F: an unlisted address there reads as its font byte, so the table is put back by
dropping what is listed there (R197, R241). -/
def Memory.installFont (m : Memory) : Memory := m.filter fun c => decide (80 ≤ c.1)

/-- The greatest image that fits from 0x200 upward (R198; spec/20_memory.md R65). -/
def maxImage : Nat := 3584

/-- `Load(image)`: the font, then the image from 0x200; nothing else changes (R197). -/
def State.load (s : State) (image : List Byte) : State := { s with mem := s.mem.installFont.writeBytes 0x200 image }

/-- `SetKeyState(k, pressed)`: `LRK` is set by a true down-to-up transition only (R200, D16). -/
def State.setKeyState (s : State) (k : KeyNum) (pressed : Bool) : State :=
  { s with
    keys := s.keys.set k pressed
    lrk := if s.keyDown k = true ∧ pressed = false then some k else s.lrk }

/-- `Display()`: a copy of `DISP`, row first, then column; the read changes no state (R199, D21). -/
def State.display (s : State) : List (List Bool) := s.disp.toList.map Vector.toList

/-! ## A run (R202, R243) -/

/-- How far the boot order has come: `Load` is defined once, before the first `Step` (R197, R243). The model's own. -/
inductive Phase where
  | constructed
  | loaded
  | running
  deriving DecidableEq, Repr

/-- The machine as the host sees it. The model's own record of the boot order stands beside the machine. -/
structure Session where
  phase : Phase
  machine : State
  deriving DecidableEq, Repr

/-- What the outside world can do: the host's operations (R195) and the environment's supply of bytes to draws (R10, R143). A `load`
of `none` is a source that could not be read (R198). -/
inductive HostMove where
  | reset
  | load (source : Option (List Byte))
  | step
  | setKeyState (k : Nat) (pressed : Bool)
  | display
  | supplyDraws (bytes : List Byte)
  deriving DecidableEq, Repr

/-- The answer to a host operation. -/
abbrev SessionResult := Host.Outcome Session Fault Refusal

/-- A newly constructed machine, whatever the environment has supplied and however often it has been drawn from (R196, R143). -/
def Session.constructed (drawQueue : List Byte) (drawCount : Nat) : Session :=
  { phase := .constructed, machine := State.constructed drawQueue drawCount }

/-- `Reset` as a host operation (R196). -/
def Session.reset (h : Session) : Session := { phase := .constructed, machine := h.machine.reconstruct }

/-- `Load` (R197, R198, R252). -/
def Session.load (h : Session) (source : Option (List Byte)) : SessionResult :=
  match h.phase, source with
  | .constructed, some image =>
    if image.length ≤ maxImage then .next { phase := .loaded, machine := h.machine.load image }
    else .refused .imageTooLong
  | .constructed, none => .refused .loadFailed
  | .loaded, _ => .refused .loadNotFirst
  | .running, _ => .refused .loadNotFirst

/-- `Step()` as a host operation (R190, R193). -/
def Session.step (c : Config) (h : Session) : SessionResult :=
  match stepWith c h.machine with
  | .next t => .next { phase := .running, machine := t }
  | .fault f => .fault f
  | .refused r => .refused r

/-- `SetKeyState` with any number: a key above 15 is refused (R200, R252). -/
def Session.setKeyState (h : Session) (k : Nat) (pressed : Bool) : SessionResult :=
  if hk : k < 16 then .next { h with machine := h.machine.setKeyState ⟨k, hk⟩ pressed }
  else .refused .keyOutOfRange

/-- One move of the outside world (R195, R143). -/
def Session.move (c : Config) (h : Session) : HostMove → SessionResult
  | .reset => .next h.reset
  | .load source => h.load source
  | .step => h.step c
  | .setKeyState k pressed => h.setKeyState k pressed
  | .display => .next h
  | .supplyDraws bytes => .next { h with machine := h.machine.supplyDraws bytes }

/-- A run of such moves, in the order the host chooses (R202). A fault is fatal for the run (R193, R216). -/
def Session.run (c : Config) (h : Session) : List HostMove → SessionResult
  | [] => .next h
  | m :: ms =>
    match h.move c m with
    | .next h' => Session.run c h' ms
    | .fault f => .fault f
    | .refused r => .refused r

end Sys2Proof.Machine
end

