-- ==== Sys2Proof/Safety.lean ====
section
/-!
DEFINITION. The terms in which the statements speak of the machine: what an instruction leaves unchanged, the invariant of the
state, and the situations of spec/60_exceptions.md R210 in which a handler faults.
-/

namespace Sys2Proof.Machine

/-! ## Frames -/

/-- A piece of the state: one register, one stack slot, one cell of the display, one byte of memory, or a whole field. -/
inductive Component where
  | reg (r : RegIx)
  | i
  | pc
  | slot (k : Fin 16)
  | sp
  | dt
  | st
  | cyc
  | tone
  | cell (r : Fin 32) (c : Fin 64)
  | key (k : KeyNum)
  | lrk
  | byte (a : Nat)
  | events
  | draws
  deriving DecidableEq, Repr

/-- The component holds the same in both states. A byte of memory is compared by reading it. -/
def Component.same (s t : State) : Component → Prop
  | .reg r => t.reg r = s.reg r
  | .i => t.i = s.i
  | .pc => t.pc = s.pc
  | .slot k => t.slot k = s.slot k
  | .sp => t.sp = s.sp
  | .dt => t.dt = s.dt
  | .st => t.st = s.st
  | .cyc => t.cyc = s.cyc
  | .tone => t.tone = s.tone
  | .cell r c => t.disp.cell r c = s.disp.cell r c
  | .key k => t.keyDown k = s.keyDown k
  | .lrk => t.lrk = s.lrk
  | .byte a => t.readByte a = s.readByte a
  | .events => t.events = s.events
  | .draws => t.drawQueue = s.drawQueue ∧ t.drawCount = s.drawCount

/-- From `s` to `t` nothing changes outside the components that `changed` names. -/
def Frame (changed : Component → Prop) (s t : State) : Prop := ∀ c, ¬ changed c → c.same s t

/-- `a` is one of the `n` addresses from `base` upward. -/
def InRange (base n a : Nat) : Prop := base ≤ a ∧ a < base + n

/-! ## Encodings -/

/-- The instruction is the meaning of exactly one word, the number `k`. -/
def EncodedAs (i : Instr) (k : Nat) : Prop := ∀ w : Word, decode w = .ok i ↔ w.toNat = k

/-! ## The sprite of a draw -/

/-- A sprite of `n` rows from `I` at column `V[x]`, row `V[y]` has a 1 on the cell: `S(r, c)` of spec/43_draw.md R153. -/
def SpriteCovers (s : State) (x y : RegIx) (n : Nat) (r : Fin 32) (c : Fin 64) : Prop :=
  ∃ row < n, ∃ col < 8, r.val = ((s.reg y).toNat + row) % 32 ∧ c.val = ((s.reg x).toNat + col) % 64 ∧
    (s.readByte (s.i.toNat + row)).getLsbD (7 - col) = true

/-! ## The invariant -/

/-- The tone after a sequence of sound events that starts silent and strictly alternates beginning with `SoundOn`; none where the
sequence does not (spec/60_exceptions.md R225 (c), (d)). -/
def toneAfter : Bool → List SoundEvent → Option Bool
  | tone, [] => some tone
  | false, .soundOn :: es => toneAfter true es
  | true, .soundOff :: es => toneAfter false es
  | true, .soundOn :: _ => none
  | false, .soundOff :: _ => none

/-- What holds between steps: memory is in its canonical form inside its 4096 cells, `CYC` is in 0 to N − 1 (R28), and the events
emitted alternate and agree with `TONE` (R29, R225). -/
structure State.Inv (c : Config) (s : State) : Prop where
  memory : s.mem.wf
  cycle : s.cyc < c.cyclesPerTick
  sound : toneAfter false s.events = some s.tone

/-! ## The faults of a handler -/

/-- The handler faults of R210, per instruction and state: the only ones there are. -/
def handlerFault (i : Instr) (s : State) : Option Fault :=
  match i with
  | .callAddr _ => if s.sp.val = 16 then some .stackOverflow else none
  | .ret => if s.sp.val = 0 then some .stackUnderflow else none
  | .drwVxVyN _ _ n => if n > 0 ∧ s.i.toNat + n - 1 > 0xFFF then some (.addressOutOfRange (max s.i.toNat 0x1000)) else none
  | .ldBVx _ => if s.i.toNat + 2 > 0xFFF then some (.addressOutOfRange (max s.i.toNat 0x1000)) else none
  | .ldMemIVx x => if s.i.toNat + x.val > 0xFFF then some (.addressOutOfRange (max s.i.toNat 0x1000)) else none
  | .ldVxMemI x => if s.i.toNat + x.val > 0xFFF then some (.addressOutOfRange (max s.i.toNat 0x1000)) else none
  | _ => none

/-- The new `PC` of each instruction, the table of spec/47_step_cycle.md R192; of a return, for a stack that is not empty. -/
def nextPc (i : Instr) (s : State) : Word :=
  match i with
  | .jpAddr addr => BitVec.ofNat 16 addr
  | .callAddr addr => BitVec.ofNat 16 addr
  | .jpV0Addr addr => BitVec.ofNat 16 (addr + (s.reg 0).toNat)
  | .ret => if h : 0 < s.sp.val then s.slot ⟨s.sp.val - 1, by omega⟩ + 2 else s.pc
  | .seVxKk x kk => if s.reg x = kk then s.pc + 4 else s.pc + 2
  | .sneVxKk x kk => if s.reg x ≠ kk then s.pc + 4 else s.pc + 2
  | .seVxVy x y => if s.reg x = s.reg y then s.pc + 4 else s.pc + 2
  | .sneVxVy x y => if s.reg x ≠ s.reg y then s.pc + 4 else s.pc + 2
  | .skpVx x => if s.keyDown (s.keyOperand x) = true then s.pc + 4 else s.pc + 2
  | .sknpVx x => if s.keyDown (s.keyOperand x) = false then s.pc + 4 else s.pc + 2
  | .ldVxK _ => if s.lrk = none then s.pc else s.pc + 2
  | _ => s.pc + 2

end Sys2Proof.Machine
end

