-- ==== Sys2Proof/Certificates/Slice0/Obligations.lean ====
section
/-!
DEFINITION. What is stated about the machine, each from the rule of spec/ its docstring names.
-/

open Sys2Proof Sys2Proof.Machine

/-! ## Encoding -/

/-- R84, and one word more for every family that R84 leaves out. That 0x0000 and 0xE19F are unknown rests on the spec's own decision
D5, which lets families 0 and E decode by exact match only (notes/assumptions/7.md). -/
def Obligations.DecodesWordsWrittenFromTheSpec : Prop :=
  decode 0x00E0 = .ok .cls ∧ decode 0x2ABC = .ok (.callAddr 0xABC) ∧ decode 0x8AB5 = .ok (.subVxVy 10 11) ∧
  decode 0xD125 = .ok (.drwVxVyN 1 2 5) ∧ decode 0xF133 = .ok (.ldBVx 1) ∧
  decode 0x5121 = .error (.unknownOpcode 0x5121) ∧ decode 0x8128 = .error (.unknownOpcode 0x8128) ∧
  decode 0xE19F = .error (.unknownOpcode 0xE19F) ∧ decode 0xF100 = .error (.unknownOpcode 0xF100) ∧
  decode 0x0000 = .error (.unknownOpcode 0x0000) ∧
  decode 0x1234 = .ok (.jpAddr 0x234) ∧ decode 0x3100 = .ok (.seVxKk 1 0x00) ∧ decode 0x4207 = .ok (.sneVxKk 2 0x07) ∧
  decode 0x6A3F = .ok (.ldVxKk 10 0x3F) ∧ decode 0x71FF = .ok (.addVxKk 1 0xFF) ∧ decode 0x9340 = .ok (.sneVxVy 3 4) ∧
  decode 0xA300 = .ok (.ldIAddr 0x300) ∧ decode 0xBFFF = .ok (.jpV0Addr 0xFFF) ∧ decode 0xC10F = .ok (.rndVxKk 1 0x0F) ∧
  decode 0xE19E = .ok (.skpVx 1) ∧ decode 0xE1A1 = .ok (.sknpVx 1)

/-- R82 and R83 are inverse: no bit of an encoding is dropped. That `Instr` keeps the ignored `y` of the shifts and that its fields are
bounded by `wellFormed` is the model's (notes/assumptions/20.md). -/
def Obligations.DecodeOfEncodeIsTheInstruction : Prop :=
  ∀ i : Instr, i.wellFormed = true → decode (encode i) = .ok i

/-- The other direction: each word has one meaning, the ignored `y` of the shifts included, which `Instr` keeps by the model's choice
(notes/assumptions/20.md). -/
def Obligations.EncodeOfDecodedWordIsTheWord : Prop :=
  ∀ (w : Word) (i : Instr), decode w = .ok i → i.wellFormed = true ∧ encode i = w

/-- R74, R75: a word decodes to the instruction whose row of the opcode map it matches and to nothing where it matches none, and no
word matches two rows. That families 0, 9 and E follow their exact patterns is the spec's own decisions D5, D6, as R74 and R76 mark
(notes/assumptions/7.md). -/
def Obligations.DecodeFollowsTheOpcodeMap : Prop :=
  (∀ (w : Word) (i : Instr), decode w = .ok i → i.pattern ∈ opcodeMap ∧ i.pattern.matchesWord w = true) ∧
  (∀ (w : Word) (e : DecodeError), decode w = .error e → e = .unknownOpcode w ∧ ∀ p ∈ opcodeMap, p.matchesWord w = false) ∧
  (∀ (w : Word) (p q : Pattern), p ∈ opcodeMap → q ∈ opcodeMap → p.matchesWord w = true → q.matchesWord w = true → p = q)

/-- The table of R76, family by family, on the number the word is. Families 0, E and 9 rest on the spec's own decisions D5, D6
(notes/assumptions/7.md). -/
def Obligations.UnknownWordsAreTheListedOnes : Prop :=
  ∀ w : Word, decode w = .error (.unknownOpcode w) ↔
    (w.toNat / 4096 = 0 ∧ w.toNat ≠ 0x00E0 ∧ w.toNat ≠ 0x00EE) ∨
    (w.toNat / 4096 = 5 ∧ w.toNat % 16 ≠ 0) ∨
    (w.toNat / 4096 = 8 ∧ w.toNat % 16 ∈ [0x8, 0x9, 0xA, 0xB, 0xC, 0xD, 0xF]) ∨
    (w.toNat / 4096 = 9 ∧ w.toNat % 16 ≠ 0) ∨
    (w.toNat / 4096 = 0xE ∧ w.toNat % 256 ∉ [0x9E, 0xA1]) ∨
    (w.toNat / 4096 = 0xF ∧ w.toNat % 256 ∉ [0x07, 0x0A, 0x15, 0x18, 0x1E, 0x29, 0x33, 0x55, 0x65])

/-! ## The step -/

/-- R190, R54: where the two bytes at `PC`, high byte first, decode to `i`, the step is the handler of `i`, and where that goes on,
the count of the cycle. -/
def Obligations.StepRunsTheDecodedInstruction : Prop :=
  ∀ (s : State) (i : Instr), s.pc.toNat ≤ 0xFFE →
    decode (BitVec.ofNat 16 ((s.readByte s.pc.toNat).toNat * 256 + (s.readByte (s.pc.toNat + 1)).toNat)) = .ok i →
    step s =
      match exec i s with
      | .next t => .next (countCycle Config.machine.cyclesPerTick t)
      | .fault f => .fault f
      | .refused r => .refused r

/-- R215, R191, R212: the fetch range first, then the decoding, then the handler's own check; the order is the spec's own decision D18
(notes/assumptions/16.md). -/
def Obligations.StepReportsTheFirstFailingCheck : Prop :=
  (∀ s : State, s.pc.toNat > 0xFFE → step s = .fault (.addressOutOfRange (max s.pc.toNat 0x1000))) ∧
  (∀ s : State, s.pc.toNat ≤ 0xFFE → ∀ e,
    decode (BitVec.ofNat 16 ((s.readByte s.pc.toNat).toNat * 256 + (s.readByte (s.pc.toNat + 1)).toNat)) = .error e →
    step s = .fault (.unknownOpcode
      (BitVec.ofNat 16 ((s.readByte s.pc.toNat).toNat * 256 + (s.readByte (s.pc.toNat + 1)).toNat)))) ∧
  (∀ s : State, s.pc.toNat ≤ 0xFFE → ∀ i f,
    decode (BitVec.ofNat 16 ((s.readByte s.pc.toNat).toNat * 256 + (s.readByte (s.pc.toNat + 1)).toNat)) = .ok i →
    handlerFault i s = some f → step s = .fault f)

/-- R244: a machine that was never loaded faults on the word 0x0000 at 0x200, whatever the parameters. -/
def Obligations.UnloadedMachineFaultsOnItsFirstStep : Prop :=
  ∀ c : Config, stepWith c State.reset = .fault (.unknownOpcode 0x0000)

/-- R223: every successful step counts one cycle, the `N`-th one ends with a tick and starts the count again, for every `N`. The
phase of the first tick is the spec's own decision D8 (notes/assumptions/8.md). -/
def Obligations.EverySuccessfulStepCountsOneCycle : Prop :=
  ∀ (c : Config) (s t : State), stepWith c s = .next t →
    ∃ (i : Instr) (u : State), exec i s = .next u ∧ u.cyc = s.cyc ∧
      (s.cyc + 1 = c.cyclesPerTick → t = timerTick { u with cyc := 0 }) ∧
      (s.cyc + 1 ≠ c.cyclesPerTick → t = { u with cyc := s.cyc + 1 })

/-- R193: a faulted step faults the same way for ever, also where the host changes keys in between. -/
def Obligations.FaultedStepFaultsAgainAfterAnyKeyChange : Prop :=
  ∀ (c : Config) (s : State) (f : Fault), stepWith c s = .fault f →
    ∀ changes : List (KeyNum × Bool),
      stepWith c (changes.foldl (fun u kp => u.setKeyState kp.1 kp.2) s) = .fault f

/-- spec/93_implementation_defined.md U1: the optional guard only removes behaviours, and with it off its fault is never raised. -/
def Obligations.FontRegionGuardOnlyRemovesBehaviours : Prop :=
  (∀ (c : Config) (s t : State), stepWith { c with fontRegionGuard := true } s = .next t →
    stepWith { c with fontRegionGuard := false } s = .next t ∧ 0x200 ≤ s.pc.toNat ∧
      ∀ a < 0x200, t.readByte a = s.readByte a) ∧
  (∀ (c : Config) (s : State) (a : Nat), c.fontRegionGuard = false → stepWith c s ≠ .fault (.fontRegionAliased a))

/-! ## Timers and sound -/

/-- R224, R225: one tick. The place and order of the sound checks are the spec's own decision D10 (notes/assumptions/10.md). -/
def Obligations.TickCountsDownAndSignalsTheEdges : Prop :=
  ∀ s : State,
    (timerTick s).dt.toNat = s.dt.toNat - 1 ∧ (timerTick s).st.toNat = s.st.toNat - 1 ∧
    ((timerTick s).tone = true ↔ s.st.toNat ≥ 2) ∧
    (timerTick s).events = s.events ++ (if s.st.toNat ≠ 0 ∧ s.tone = false then [.soundOn] else []) ++
      (if s.st.toNat ≤ 1 ∧ (s.tone = true ∨ s.st.toNat = 1) then [.soundOff] else []) ∧
    Frame (fun c => c ∈ [Component.dt, .st, .tone, .events]) s (timerTick s)

/-- R224: a timer of value `v` reaches 0 at the `v`-th tick and stays there. -/
def Obligations.TimersReachZeroAfterTheirValueInTicks : Prop :=
  ∀ (s : State) (k : Nat),
    (timerTick^[k] s).dt.toNat = s.dt.toNat - k ∧ (timerTick^[k] s).st.toNat = s.st.toNat - k

/-- R225, CG §8: a tone gives one `SoundOn` and one `SoundOff`, at its edges and at no tick between them. The
tick at which each is signalled is the spec's own decision D10 (notes/assumptions/10.md). -/
def Obligations.ToneSignalsEachEdgeOnce : Prop :=
  ∀ (s : State) (k : Nat), s.tone = false → s.st ≠ 0 → 0 < k →
    (timerTick^[k] s).events = s.events ++ (if k < s.st.toNat then [.soundOn] else [.soundOn, .soundOff])

/-! ## Invariants and reset -/

/-- Every step keeps the invariant. Each clause rests on a choice: the canonical form of memory is the model's, a design choice that R55
does not force (notes/assumptions/4.md); `CYC` as a number that stays below `N` is the spec's own decision D8 with the bound as an
invariant by the model's choice (8.md, 22.md); `TONE` is the spec's own decision D10 and the list of events it agrees with is held in
the state by the model's choice (10.md). -/
def Obligations.StepKeepsTheInvariant : Prop :=
  (∀ (c : Config) (s t : State), s.Inv c → stepWith c s = .next t → t.Inv c) ∧
  (∀ s t : State, s.Inv Config.machine → step s = .next t → t.Inv Config.machine)

/-- The invariant of `StepKeepsTheInvariant` holds at reset, for every `N`. The canonical form of memory is the model's
(notes/assumptions/4.md), the form of `CYC` the spec's own decision D8 with its bound the model's (8.md, 22.md), `TONE` the spec's own
decision D10 and the list of events the model's (10.md). -/
def Obligations.ResetMeetsTheInvariant : Prop :=
  ∀ c : Config, State.reset.Inv c

/-- R202: every move of the outside world keeps the invariant of `StepKeepsTheInvariant`, a machine newly constructed in any
environment meets it, and so every run of moves keeps it. The clauses of the invariant are the model's or the spec's own choices
(notes/assumptions/4.md, 8.md, 10.md, 22.md). So are the moves: what `Load` is refused and that a step may come before it (the spec's
own decision D17 and the model's choice, 15.md), that `Reset` may come at any time (read from R196, 23.md), and that the environment
supplies bytes by a move of its own (the model's, 3.md). -/
def Obligations.EveryHostRunKeepsTheInvariant : Prop :=
  (∀ (c : Config) (h h' : Session) (m : HostMove), h.machine.Inv c → h.move c m = .next h' → h'.machine.Inv c) ∧
  (∀ (c : Config) (supplied : List Byte) (drawn : Nat), (Session.constructed supplied drawn).machine.Inv c) ∧
  (∀ (c : Config) (moves : List HostMove) (h h' : Session),
    h.machine.Inv c → Session.run c h moves = .next h' → h'.machine.Inv c)

/-- R34, R240, R242: the values after reset. The forms of `CYC` and `TONE` are the spec's own decisions D8, D10, the list of events
is the model's (notes/assumptions/8.md, 10.md). -/
def Obligations.ResetLeavesTheListedValues : Prop :=
  (∀ r : RegIx, State.reset.reg r = 0) ∧ State.reset.i = 0 ∧ State.reset.pc = 0x200 ∧
  (∀ k : Fin 16, State.reset.slot k = 0) ∧ State.reset.sp = 0 ∧ State.reset.dt = 0 ∧ State.reset.st = 0 ∧
  State.reset.cyc = 0 ∧ State.reset.tone = false ∧ (∀ r c, State.reset.disp.cell r c = false) ∧
  (∀ k, State.reset.keyDown k = false) ∧ State.reset.lrk = none ∧
  (∀ a (h : a < 80), State.reset.readByte a = Config.font[a]) ∧
  (∀ a, 80 ≤ a → a < 0x1000 → State.reset.readByte a = 0) ∧ State.reset.events = []

/-! ## Rules of the whole machine -/

/-- R210: the handlers fault exactly where its table says, and none refuses. These faults are the spec's own decisions D1, D2
(notes/assumptions/5.md, 6.md). -/
def Obligations.HandlersFaultExactlyWhereListed : Prop :=
  (∀ (i : Instr) (s : State) (f : Fault), exec i s = .fault f ↔ handlerFault i s = some f) ∧
  (∀ (i : Instr) (s : State) (r : Refusal), exec i s ≠ .refused r)

/-- R192, R210: every instruction whose own check passes answers a next state, with the `PC` of R192's table. The checks are the spec's
own decisions D1, D2, the return's plus 2 its D4, sums of `PC` modulo 2^16 its D14 (notes/assumptions/5.md, 6.md, 12.md). -/
def Obligations.EveryInstructionCompletesWithTheListedPc : Prop :=
  ∀ (i : Instr) (s : State), handlerFault i s = none → ∃ t, exec i s = .next t ∧ t.pc = nextPc i s

/-- R36, R51, R22, R26 to R29, R32, R55: which instructions may change which state. That `Fx33`, `Fx55`, `Fx65` leave `I` is the spec's
own decision D15 (notes/assumptions/13.md), that `Fx18` emits no event its D10 (10.md); events and draws are the model's fields. -/
def Obligations.OnlyTheNamedInstructionsChangeEachState : Prop :=
  ∀ (i : Instr) (s t : State), exec i s = .next t →
    (∀ k, t.keyDown k = s.keyDown k) ∧ t.cyc = s.cyc ∧ t.tone = s.tone ∧ t.events = s.events ∧
    (t.sp ≠ s.sp → i = .ret ∨ ∃ addr, i = .callAddr addr) ∧
    (∀ k, t.slot k ≠ s.slot k → ∃ addr, i = .callAddr addr) ∧
    (∀ r c, t.disp.cell r c ≠ s.disp.cell r c → i = .cls ∨ ∃ x y n, i = .drwVxVyN x y n) ∧
    (t.i ≠ s.i → (∃ addr, i = .ldIAddr addr) ∨ (∃ x, i = .addIVx x) ∨ ∃ x, i = .ldFVx x) ∧
    (t.dt ≠ s.dt → ∃ x, i = .ldDtVx x) ∧ (t.st ≠ s.st → ∃ x, i = .ldStVx x) ∧
    (t.lrk ≠ s.lrk → t.lrk = none ∧ ∃ x, i = .ldVxK x) ∧
    (∀ a, t.readByte a ≠ s.readByte a →
      (∃ x, i = .ldBVx x ∧ InRange s.i.toNat 3 a) ∨ ∃ x, i = .ldMemIVx x ∧ InRange s.i.toNat (x.val + 1) a) ∧
    (t.drawCount ≠ s.drawCount ∨ t.drawQueue ≠ s.drawQueue → ∃ x kk, i = .rndVxKk x kk)

/-- R21, R39: the flag register is changed only by the six flag-setting instructions and by those that name it as destination. -/
def Obligations.OnlyTheNamedInstructionsChangeTheFlag : Prop :=
  ∀ (i : Instr) (s t : State), exec i s = .next t → t.reg 15 ≠ s.reg 15 →
    (∃ x y, i = .addVxVy x y ∨ i = .subVxVy x y ∨ i = .shrVx x y ∨ i = .subnVxVy x y ∨ i = .shlVx x y) ∨
    (∃ x y n, i = .drwVxVyN x y n) ∨
    (∃ kk, i = .ldVxKk 15 kk ∨ i = .addVxKk 15 kk ∨ i = .rndVxKk 15 kk) ∨
    (∃ y, i = .ldVxVy 15 y ∨ i = .orVxVy 15 y ∨ i = .andVxVy 15 y ∨ i = .xorVxVy 15 y) ∨
    i = .ldVxDt 15 ∨ i = .ldVxK 15 ∨ i = .ldVxMemI 15

/-- R31: `KEYS` is read by `Ex9E` and `ExA1` only. Two machines that differ in the keys alone answer every other instruction alike. -/
def Obligations.KeysReachOnlyTheKeySkips : Prop :=
  ∀ (i : Instr) (s : State) (keys : Vector Bool 16), (∀ x, i ≠ .skpVx x ∧ i ≠ .sknpVx x) →
    exec i { s with keys := keys } =
      match exec i s with
      | .next t => .next { t with keys := keys }
      | .fault f => .fault f
      | .refused r => .refused r

/-- R143, R142, R11, R196: the bytes of draws are an input of the machine and none of its state, the spec's own decision D12; that they
stand in `State` as a list of supplied bytes and a count is the model's (notes/assumptions/3.md). No instruction but `Cxkk` sees or
uses them; `Reset` gives the machine the values of R34 and does not rewind them; the environment may supply any further bytes at any
time; and so each of the 256 bytes can be the one an execution of `Cxkk` draws, whatever was drawn before and however often the
machine was reset. -/
def Obligations.DrawsBelongToTheEnvironment : Prop :=
  (∀ (i : Instr) (s : State) (supplied : List Byte) (drawn : Nat), (∀ x kk, i ≠ .rndVxKk x kk) →
    exec i { s with drawQueue := supplied, drawCount := drawn } =
      match exec i s with
      | .next t => .next { t with drawQueue := supplied, drawCount := drawn }
      | .fault f => .fault f
      | .refused r => .refused r) ∧
  (∀ (c : Config) (h : Session), ∃ h', h.move c .reset = .next h' ∧ h'.phase = .constructed ∧
    h'.machine.toArchState = ArchState.reset ∧ h'.machine.events = [] ∧
    h'.machine.drawQueue = h.machine.drawQueue ∧ h'.machine.drawCount = h.machine.drawCount) ∧
  (∀ (c : Config) (h : Session) (bytes : List Byte), h.move c (.supplyDraws bytes) =
    .next { h with machine := { h.machine with drawQueue := h.machine.drawQueue ++ bytes } }) ∧
  (∀ (c : Config) (h : Session) (x : RegIx) (kk r : Byte), h.machine.drawQueue = [] →
    ∃ h' t, h.move c (.supplyDraws [r]) = .next h' ∧ exec (.rndVxKk x kk) h'.machine = .next t ∧
      (∀ k < 8, (t.reg x).getLsbD k = (r.getLsbD k && kk.getLsbD k)) ∧ t.drawQueue = [] ∧
      t.drawCount = h.machine.drawCount + 1)

/-! ## Families 0 to 5 and 9 -/

/-- R100: `00E0`, its word and its effect. -/
def Obligations.ClearZeroesTheDisplay : Prop :=
  EncodedAs .cls 0x00E0 ∧
  ∀ s : State, ∃ t, exec .cls s = .next t ∧ (∀ r c, t.disp.cell r c = false) ∧ t.pc = s.pc + 2 ∧
    Frame (fun c => c = .pc ∨ ∃ r k, c = .cell r k) s t

/-- R101: `00EE`. That an empty stack faults is the spec's own decision D2, that the slot holds the call's address and the return adds
2 its decision D4 (notes/assumptions/6.md). -/
def Obligations.ReturnPopsAndAddsTwo : Prop :=
  (∀ s : State, s.sp.val = 0 → exec .ret s = .fault .stackUnderflow) ∧
  (∀ (s : State) (h : s.sp.val ≠ 0), ∃ t, exec .ret s = .next t ∧ t.sp.val = s.sp.val - 1 ∧
    t.pc.toNat = ((s.slot ⟨s.sp.val - 1, by omega⟩).toNat + 2) % 2 ^ 16 ∧ Frame (fun c => c ∈ [Component.pc, .sp]) s t)

/-- R102: `1nnn`, its word and its effect. A jump to its own address changes nothing. -/
def Obligations.JumpLoadsThePc : Prop :=
  ∀ addr : Nat, addr < 0x1000 → EncodedAs (.jpAddr addr) (0x1000 + addr) ∧
    ∀ s : State, ∃ t, exec (.jpAddr addr) s = .next t ∧ t.pc.toNat = addr ∧ Frame (fun c => c = .pc) s t ∧
      (s.pc.toNat = addr → t = s)

/-- R141: `Bnnn` adds `V[0]`. That the sum is not reduced modulo 4096 is the spec's own decision D14 (notes/assumptions/12.md). -/
def Obligations.IndexedJumpAddsRegisterZero : Prop :=
  ∀ (s : State) (addr : Nat), addr < 0x1000 →
    ∃ t, exec (.jpV0Addr addr) s = .next t ∧ t.pc.toNat = addr + (s.reg 0).toNat ∧ Frame (fun c => c = .pc) s t

/-- R103: `2nnn`. That a full stack faults and that the slot receives the call's own address are the spec's own decisions D2, D4
(notes/assumptions/6.md). -/
def Obligations.CallPushesItsOwnAddress : Prop :=
  (∀ (s : State) (addr : Nat), s.sp.val = 16 → exec (.callAddr addr) s = .fault .stackOverflow) ∧
  (∀ (s : State) (addr : Nat), addr < 0x1000 → ∀ h : s.sp.val < 16,
    ∃ t, exec (.callAddr addr) s = .next t ∧ t.slot ⟨s.sp.val, h⟩ = s.pc ∧ t.sp.val = s.sp.val + 1 ∧ t.pc.toNat = addr ∧
      Frame (fun c => c ∈ [Component.pc, .sp, .slot ⟨s.sp.val, h⟩]) s t)

/-- R108 (1), CG §8: a call followed by a return goes on after the call, with the stack pointer of before. -/
def Obligations.CallThenReturnGoesOnAfterTheCall : Prop :=
  ∀ (s : State) (addr : Nat), s.sp.val < 16 →
    ∃ t u, exec (.callAddr addr) s = .next t ∧ exec .ret t = .next u ∧ u.pc = s.pc + 2 ∧ u.sp = s.sp ∧
      ∀ k : Fin 16, k.val < s.sp.val → u.slot k = s.slot k

/-- R104, R105: `3xkk` and `4xkk`, their words and their effect. -/
def Obligations.ImmediateSkipsCompareTheRegister : Prop :=
  ∀ (x : RegIx) (kk : Byte), EncodedAs (.seVxKk x kk) (0x3000 + x.val * 256 + kk.toNat) ∧
    EncodedAs (.sneVxKk x kk) (0x4000 + x.val * 256 + kk.toNat) ∧ ∀ s : State,
    (∃ t, exec (.seVxKk x kk) s = .next t ∧
      t.pc.toNat = (s.pc.toNat + (if (s.reg x).toNat = kk.toNat then 4 else 2)) % 2 ^ 16 ∧ Frame (fun c => c = .pc) s t) ∧
    (∃ t, exec (.sneVxKk x kk) s = .next t ∧
      t.pc.toNat = (s.pc.toNat + (if (s.reg x).toNat = kk.toNat then 2 else 4)) % 2 ^ 16 ∧ Frame (fun c => c = .pc) s t)

/-- R106, R107: `5xy0` and `9xy0`. -/
def Obligations.RegisterSkipsCompareTheRegisters : Prop :=
  ∀ (s : State) (x y : RegIx),
    (∃ t, exec (.seVxVy x y) s = .next t ∧
      t.pc.toNat = (s.pc.toNat + (if (s.reg x).toNat = (s.reg y).toNat then 4 else 2)) % 2 ^ 16 ∧
      Frame (fun c => c = .pc) s t) ∧
    (∃ t, exec (.sneVxVy x y) s = .next t ∧
      t.pc.toNat = (s.pc.toNat + (if (s.reg x).toNat = (s.reg y).toNat then 2 else 4)) % 2 ^ 16 ∧
      Frame (fun c => c = .pc) s t)

/-! ## Families 6 to 8 -/

/-- R120, R121: `6xkk` and `7xkk`, their words and their effect; the sum wraps and sets no flag. -/
def Obligations.ImmediateLoadAndAddWriteTheRegister : Prop :=
  ∀ (x : RegIx) (kk : Byte), EncodedAs (.ldVxKk x kk) (0x6000 + x.val * 256 + kk.toNat) ∧
    EncodedAs (.addVxKk x kk) (0x7000 + x.val * 256 + kk.toNat) ∧ ∀ s : State,
    (∃ t, exec (.ldVxKk x kk) s = .next t ∧ t.reg x = kk ∧ t.pc = s.pc + 2 ∧
      Frame (fun c => c ∈ [Component.reg x, .pc]) s t) ∧
    (∃ t, exec (.addVxKk x kk) s = .next t ∧ (t.reg x).toNat = ((s.reg x).toNat + kk.toNat) % 256 ∧ t.pc = s.pc + 2 ∧
      Frame (fun c => c ∈ [Component.reg x, .pc]) s t)

/-- R122 to R125: move, OR, AND, XOR, their words and their effect; no flag. -/
def Obligations.MoveAndLogicWriteTheRegisterAndNoFlag : Prop :=
  ∀ x y : RegIx, EncodedAs (.ldVxVy x y) (0x8000 + x.val * 256 + y.val * 16) ∧
    EncodedAs (.orVxVy x y) (0x8001 + x.val * 256 + y.val * 16) ∧
    EncodedAs (.andVxVy x y) (0x8002 + x.val * 256 + y.val * 16) ∧
    EncodedAs (.xorVxVy x y) (0x8003 + x.val * 256 + y.val * 16) ∧ ∀ s : State,
    (∃ t, exec (.ldVxVy x y) s = .next t ∧ t.reg x = s.reg y ∧ t.pc = s.pc + 2 ∧
      Frame (fun c => c ∈ [Component.reg x, .pc]) s t) ∧
    (∃ t, exec (.orVxVy x y) s = .next t ∧
      (∀ k < 8, (t.reg x).getLsbD k = ((s.reg x).getLsbD k || (s.reg y).getLsbD k)) ∧ t.pc = s.pc + 2 ∧
      Frame (fun c => c ∈ [Component.reg x, .pc]) s t) ∧
    (∃ t, exec (.andVxVy x y) s = .next t ∧
      (∀ k < 8, (t.reg x).getLsbD k = ((s.reg x).getLsbD k && (s.reg y).getLsbD k)) ∧ t.pc = s.pc + 2 ∧
      Frame (fun c => c ∈ [Component.reg x, .pc]) s t) ∧
    (∃ t, exec (.xorVxVy x y) s = .next t ∧
      (∀ k < 8, (t.reg x).getLsbD k = ((s.reg x).getLsbD k ^^ (s.reg y).getLsbD k)) ∧ t.pc = s.pc + 2 ∧
      Frame (fun c => c ∈ [Component.reg x, .pc]) s t)

/-- R126, R132: `8xy4`, its word and its effect. For `x` = 15 the flag replaces the sum. -/
def Obligations.AddSetsTheCarryLast : Prop :=
  ∀ x y : RegIx, EncodedAs (.addVxVy x y) (0x8004 + x.val * 256 + y.val * 16) ∧ ∀ s : State,
    ∃ t, exec (.addVxVy x y) s = .next t ∧
    (x ≠ 15 → (t.reg x).toNat = ((s.reg x).toNat + (s.reg y).toNat) % 256) ∧
    (t.reg 15).toNat = (if (s.reg x).toNat + (s.reg y).toNat > 255 then 1 else 0) ∧
    t.pc = s.pc + 2 ∧ Frame (fun c => c ∈ [Component.reg x, .reg 15, .pc]) s t

/-- R127, R129, R132: `8xy5` and `8xy7`, their words and their effect; the flag is not-borrow, 1 on equality. -/
def Obligations.SubtractsSetNotBorrowLast : Prop :=
  ∀ x y : RegIx, EncodedAs (.subVxVy x y) (0x8005 + x.val * 256 + y.val * 16) ∧
    EncodedAs (.subnVxVy x y) (0x8007 + x.val * 256 + y.val * 16) ∧ ∀ s : State,
    (∃ t, exec (.subVxVy x y) s = .next t ∧
      (x ≠ 15 → (t.reg x).toNat = ((s.reg x).toNat + 256 - (s.reg y).toNat) % 256) ∧
      (t.reg 15).toNat = (if (s.reg x).toNat ≥ (s.reg y).toNat then 1 else 0) ∧
      t.pc = s.pc + 2 ∧ Frame (fun c => c ∈ [Component.reg x, .reg 15, .pc]) s t) ∧
    (∃ t, exec (.subnVxVy x y) s = .next t ∧
      (x ≠ 15 → (t.reg x).toNat = ((s.reg y).toNat + 256 - (s.reg x).toNat) % 256) ∧
      (t.reg 15).toNat = (if (s.reg y).toNat ≥ (s.reg x).toNat then 1 else 0) ∧
      t.pc = s.pc + 2 ∧ Frame (fun c => c ∈ [Component.reg x, .reg 15, .pc]) s t)

/-- R128, R130, R132: `8xy6` and `8xyE`, their words and their effect: they shift `V[x]` by one, whatever `y`; the flag is the bit
shifted out. -/
def Obligations.ShiftsSetTheBitShiftedOutLast : Prop :=
  ∀ x y : RegIx, EncodedAs (.shrVx x y) (0x8006 + x.val * 256 + y.val * 16) ∧
    EncodedAs (.shlVx x y) (0x800E + x.val * 256 + y.val * 16) ∧ ∀ s : State,
    (∃ t, exec (.shrVx x y) s = .next t ∧ (x ≠ 15 → (t.reg x).toNat = (s.reg x).toNat / 2) ∧
      (t.reg 15).toNat = (s.reg x).toNat % 2 ∧
      t.pc = s.pc + 2 ∧ Frame (fun c => c ∈ [Component.reg x, .reg 15, .pc]) s t) ∧
    (∃ t, exec (.shlVx x y) s = .next t ∧ (x ≠ 15 → (t.reg x).toNat = (2 * (s.reg x).toNat) % 256) ∧
      (t.reg 15).toNat = (s.reg x).toNat / 128 ∧
      t.pc = s.pc + 2 ∧ Frame (fun c => c ∈ [Component.reg x, .reg 15, .pc]) s t)

/-! ## Families A, C and the address register -/

/-- R140, R175: `Annn` and `Fx29`, their words and their effect. -/
def Obligations.AddressRegisterIsLoadedAndPointed : Prop :=
  (∀ addr : Nat, addr < 0x1000 → EncodedAs (.ldIAddr addr) (0xA000 + addr) ∧
    ∀ s : State, ∃ t, exec (.ldIAddr addr) s = .next t ∧ t.i.toNat = addr ∧ t.pc = s.pc + 2 ∧
      Frame (fun c => c ∈ [Component.i, .pc]) s t) ∧
  (∀ x : RegIx, EncodedAs (.ldFVx x) (0xF029 + x.val * 256) ∧
    ∀ s : State, ∃ t, exec (.ldFVx x) s = .next t ∧ t.i.toNat = ((s.reg x).toNat % 16) * 5 ∧ t.pc = s.pc + 2 ∧
      Frame (fun c => c ∈ [Component.i, .pc]) s t)

/-- R174: `Fx1E`; no flag. That the sum wraps at 2^16 is the spec's own decision D14 (notes/assumptions/12.md). -/
def Obligations.RegisterIsAddedToTheAddressRegister : Prop :=
  ∀ (s : State) (x : RegIx), ∃ t, exec (.addIVx x) s = .next t ∧ t.i.toNat = (s.i.toNat + (s.reg x).toNat) % 2 ^ 16 ∧
    t.pc = s.pc + 2 ∧ Frame (fun c => c ∈ [Component.i, .pc]) s t

/-- R142, R143: `Cxkk` draws one byte and masks it. The list of supplied bytes is the model's (notes/assumptions/3.md; D12). The
byte is the one the environment supplies, any of the 256; where it supplies none the result still has no bit outside the mask. -/
def Obligations.RandomIsTheDrawnByteMasked : Prop :=
  (∀ (s : State) (x : RegIx) (kk : Byte), ∃ t, exec (.rndVxKk x kk) s = .next t ∧ t.pc = s.pc + 2 ∧
    (∀ k < 8, (t.reg x).getLsbD k = true → kk.getLsbD k = true) ∧
    Frame (fun c => c ∈ [Component.reg x, .pc, .draws]) s t) ∧
  (∀ (s : State) (x : RegIx) (kk r : Byte) (rest : List Byte), s.drawQueue = r :: rest →
    ∃ t, exec (.rndVxKk x kk) s = .next t ∧ t.drawQueue = rest ∧
      ∀ k < 8, (t.reg x).getLsbD k = (r.getLsbD k && kk.getLsbD k))

/-! ## Family D -/

/-- R153, R152, R151: what a draw does, as one function of the state before: the sprite is XOR-ed onto the display, wrapping; the flag
says whether some cell that was 1 is covered; nothing else changes. That the sprite starts at column `V[x]`, row `V[y]`, bit 7 first,
is the spec's own decision D13 (notes/assumptions/11.md). -/
def Obligations.DrawXorsTheSpriteOntoTheDisplay : Prop :=
  ∀ (s : State) (x y : RegIx) (n : Nat), n < 16 → (n = 0 ∨ s.i.toNat + n - 1 ≤ 0xFFF) →
    ∃ t, exec (.drwVxVyN x y n) s = .next t ∧
      (∀ r c, t.disp.cell r c = true ↔ ¬ (s.disp.cell r c = true ↔ SpriteCovers s x y n r c)) ∧
      (t.reg 15 = 0 ∨ t.reg 15 = 1) ∧
      (t.reg 15 = 1 ↔ ∃ r c, s.disp.cell r c = true ∧ SpriteCovers s x y n r c) ∧
      t.pc = s.pc + 2 ∧ Frame (fun k => k = .reg 15 ∨ k = .pc ∨ ∃ r c, k = .cell r c) s t

/-- R151 (e): drawing a sprite a second time at the same place restores the display. -/
def Obligations.DrawingTwiceRestoresTheDisplay : Prop :=
  ∀ (m : Memory) (base : Nat) (startX startY : Byte) (n : Nat) (d : Display), n < 16 →
    (drawSprite m base startX startY n (drawSprite m base startX startY n d).1).1 = d

/-- R151, R56: a draw with a sprite byte above 0xFFF faults with the lowest such address, the spec's own decision D1
(notes/assumptions/5.md); without rows it never faults. -/
def Obligations.DrawFaultsWhereASpriteByteIsOutOfRange : Prop :=
  (∀ (s : State) (x y : RegIx) (n : Nat), n ≠ 0 → s.i.toNat + n - 1 > 0xFFF →
    exec (.drwVxVyN x y n) s = .fault (.addressOutOfRange (max s.i.toNat 0x1000))) ∧
  (∀ (s : State) (x y : RegIx), ∃ t, exec (.drwVxVyN x y 0) s = .next t ∧ t.reg 15 = 0 ∧ t.pc = s.pc + 2 ∧
    Frame (fun k => k ∈ [Component.reg 15, .pc]) s t)

/-! ## Families E and F -/

/-- R160, R161: `Ex9E` and `ExA1`, their words and their effect: they look at the key numbered by the low nibble. -/
def Obligations.KeySkipsLookAtTheNumberedKey : Prop :=
  ∀ x : RegIx, EncodedAs (.skpVx x) (0xE09E + x.val * 256) ∧ EncodedAs (.sknpVx x) (0xE0A1 + x.val * 256) ∧
    ∀ (s : State) (k : KeyNum), k.val = (s.reg x).toNat % 16 →
    (∃ t, exec (.skpVx x) s = .next t ∧ t.pc.toNat = (s.pc.toNat + (if s.keyDown k = true then 4 else 2)) % 2 ^ 16 ∧
      Frame (fun c => c = .pc) s t) ∧
    (∃ t, exec (.sknpVx x) s = .next t ∧ t.pc.toNat = (s.pc.toNat + (if s.keyDown k = true then 2 else 4)) % 2 ^ 16 ∧
      Frame (fun c => c = .pc) s t)

/-- R170, R172, R173: reading the delay timer, setting the two timers. -/
def Obligations.TimersAreReadAndSetThroughRegisters : Prop :=
  ∀ (s : State) (x : RegIx),
    (∃ t, exec (.ldVxDt x) s = .next t ∧ t.reg x = s.dt ∧ t.pc = s.pc + 2 ∧
      Frame (fun c => c ∈ [Component.reg x, .pc]) s t) ∧
    (∃ t, exec (.ldDtVx x) s = .next t ∧ t.dt = s.reg x ∧ t.pc = s.pc + 2 ∧ Frame (fun c => c ∈ [Component.dt, .pc]) s t) ∧
    (∃ t, exec (.ldStVx x) s = .next t ∧ t.st = s.reg x ∧ t.pc = s.pc + 2 ∧ Frame (fun c => c ∈ [Component.st, .pc]) s t)

/-- R171: with no released key the handler succeeds and changes nothing; with one it stores the number and clears the marker. -/
def Obligations.KeyWaitBlocksThenStoresTheKey : Prop :=
  (∀ (s : State) (x : RegIx), s.lrk = none → ∃ t, exec (.ldVxK x) s = .next t ∧ t = s) ∧
  (∀ (s : State) (x : RegIx) (k : KeyNum), s.lrk = some k →
    ∃ t, exec (.ldVxK x) s = .next t ∧ (t.reg x).toNat = k.val ∧ t.lrk = none ∧ t.pc = s.pc + 2 ∧
      Frame (fun c => c ∈ [Component.reg x, .lrk, .pc]) s t)

/-- R171 (d), (e), R204; that a blocked step counts is the spec's own decision D9 (notes/assumptions/9.md):
while no key is released, any number of steps succeed, keep the machine at the instruction and change nothing but the timer chain. -/
def Obligations.KeyWaitKeepsTheMachineAtTheInstruction : Prop :=
  ∀ (c : Config) (s : State) (x : RegIx), c.fontRegionGuard = false → s.pc.toNat ≤ 0xFFE → decode s.wordAtPc = .ok (.ldVxK x) →
    s.lrk = none → ∀ k : Nat,
    ∃ t, Session.run c ⟨.running, s⟩ (List.replicate k .step) = .next ⟨.running, t⟩ ∧
      Frame (fun p => p ∈ [Component.dt, .st, .cyc, .tone, .events]) s t

/-- R204: the step after a key goes from down to up completes the wait. -/
def Obligations.KeyReleaseCompletesTheWait : Prop :=
  ∀ (s : State) (x : RegIx) (k : KeyNum), s.keyDown k = true →
    ∃ t, exec (.ldVxK x) (s.setKeyState k false) = .next t ∧ (t.reg x).toNat = k.val ∧ t.lrk = none ∧ t.pc = s.pc + 2

/-- R176: `Fx33`. The digits are stored at the address that the meaning stores to, the value of `I`. The range fault is the spec's own
decision D1, that `I` stays its decision D15 (notes/assumptions/5.md, 13.md). -/
def Obligations.DecimalDigitsAreStored : Prop :=
  (∀ (s : State) (x : RegIx), s.i.toNat + 2 > 0xFFF →
    exec (.ldBVx x) s = .fault (.addressOutOfRange (max s.i.toNat 0x1000))) ∧
  (∀ (s : State) (x : RegIx), s.mem.wf → s.i.toNat + 2 ≤ 0xFFF → ∃ t, exec (.ldBVx x) s = .next t ∧
    (t.readByte s.dataAddress).toNat = (s.reg x).toNat / 100 ∧
    (t.readByte (s.dataAddress + 1)).toNat = (s.reg x).toNat / 10 % 10 ∧
    (t.readByte (s.dataAddress + 2)).toNat = (s.reg x).toNat % 10 ∧ t.pc = s.pc + 2) ∧
  (∀ (s t : State) (x : RegIx), exec (.ldBVx x) s = .next t →
    Frame (fun c => c = .pc ∨ ∃ a, c = .byte a ∧ InRange s.dataAddress 3 a) s t)

/-- R177: `Fx55` stores `V[0]` to `V[x]` from the value of `I` upward. The range fault is the spec's own decision D1, that `I` stays
its decision D15 (notes/assumptions/5.md, 13.md). -/
def Obligations.RegisterBlockIsStored : Prop :=
  (∀ (s : State) (x : RegIx), s.i.toNat + x.val > 0xFFF →
    exec (.ldMemIVx x) s = .fault (.addressOutOfRange (max s.i.toNat 0x1000))) ∧
  (∀ (s : State) (x : RegIx), s.mem.wf → s.i.toNat + x.val ≤ 0xFFF → ∃ t, exec (.ldMemIVx x) s = .next t ∧
    (∀ r : RegIx, r.val ≤ x.val → t.readByte (s.dataAddress + r.val) = s.reg r) ∧ t.pc = s.pc + 2) ∧
  (∀ (s t : State) (x : RegIx), exec (.ldMemIVx x) s = .next t →
    Frame (fun c => c = .pc ∨ ∃ a, c = .byte a ∧ InRange s.dataAddress (x.val + 1) a) s t)

/-- R178: `Fx65` loads `V[0]` to `V[x]` and leaves memory alone. The range fault is the spec's own decision D1, that `I` stays its
decision D15 (notes/assumptions/5.md, 13.md). -/
def Obligations.RegisterBlockIsLoaded : Prop :=
  (∀ (s : State) (x : RegIx), s.i.toNat + x.val > 0xFFF →
    exec (.ldVxMemI x) s = .fault (.addressOutOfRange (max s.i.toNat 0x1000))) ∧
  (∀ (s : State) (x : RegIx), s.i.toNat + x.val ≤ 0xFFF → ∃ t, exec (.ldVxMemI x) s = .next t ∧
    (∀ r : RegIx, r.val ≤ x.val → t.reg r = s.readByte (s.i.toNat + r.val)) ∧ t.pc = s.pc + 2 ∧
    Frame (fun c => c = .pc ∨ ∃ r : RegIx, c = .reg r ∧ r.val ≤ x.val) s t)

/-- R179: registers stored and loaded back later, with the same `I` and the stored bytes still in place, are as they were. -/
def Obligations.StoredRegistersLoadBackUnchanged : Prop :=
  ∀ (s t u : State) (x : RegIx), s.mem.wf → exec (.ldMemIVx x) s = .next t → u.i = t.i →
    (∀ a, InRange s.i.toNat (x.val + 1) a → u.readByte a = t.readByte a) →
    ∃ w, exec (.ldVxMemI x) u = .next w ∧ ∀ r : RegIx, r.val ≤ x.val → w.reg r = s.reg r

/-! ## Memory -/

/-- R55: a write sets one byte and no other. That it keeps the canonical form is no part of R55: the form is the model's, a design
choice (notes/assumptions/4.md). -/
def Obligations.MemoryReadsBackWhatWasWritten : Prop :=
  ∀ (m : Memory) (a : Nat) (b : Byte), m.wf → a < 0x1000 →
    (m.write a b).wf ∧ (m.write a b).read a = b ∧ ∀ a', a' ≠ a → (m.write a b).read a' = m.read a'

/-- Two memories in the canonical form that read alike at every address are the same list. The form is the model's, a design choice
(notes/assumptions/4.md), and this is what it is for. -/
def Obligations.CanonicalMemoriesThatReadAlikeAreEqual : Prop :=
  ∀ m m' : Memory, m.wf → m'.wf → (∀ a, m.read a = m'.read a) → m = m'

/-- R62: a store to the next instruction's address is seen by the next fetch. -/
def Obligations.StoreIsSeenByTheNextFetch : Prop :=
  ∀ (s : State) (x : RegIx), s.mem.wf → 1 ≤ x.val → s.i = s.pc + 2 → s.i.toNat + x.val ≤ 0xFFF →
    ∃ t, exec (.ldMemIVx x) s = .next t ∧ t.wordAtPc.toNat = (s.reg 0).toNat * 256 + (s.reg 1).toNat

/-! ## The host -/

/-- R197, R64: `Load` on a newly constructed machine, in any environment. The limit on the image is the spec's own decision D17
(notes/assumptions/15.md). -/
def Obligations.LoadInstallsTheFontAndTheImage : Prop :=
  ∀ (supplied : List Byte) (drawn : Nat) (image : List Byte), image.length ≤ 3584 →
    ∃ h, (Session.constructed supplied drawn).load (some image) = .next h ∧ h.phase = .loaded ∧
      (∀ a (ha : a < 80), h.machine.readByte a = Config.font[a]) ∧
      (∀ j (hj : j < image.length), h.machine.readByte (0x200 + j) = image[j]) ∧
      (∀ a, 80 ≤ a → ¬ InRange 0x200 image.length a → h.machine.readByte a = 0) ∧
      Frame (fun c => ∃ a, c = .byte a) (State.constructed supplied drawn) h.machine

/-- R64, R243: the first instruction executed is the image's first word, in any environment. -/
def Obligations.FirstStepRunsTheFirstWordOfTheImage : Prop :=
  ∀ (c : Config) (supplied : List Byte) (drawn : Nat) (hi lo : Byte) (rest : List Byte) (i : Instr), rest.length ≤ 3582 →
    decode (BitVec.ofNat 16 (hi.toNat * 256 + lo.toNat)) = .ok i →
    ∃ h, (Session.constructed supplied drawn).move c (.load (some (hi :: lo :: rest))) = .next h ∧
      stepWith c h.machine = execAndCount c i h.machine

/-- R252: what the host may not do is refused by name, the spec's own decisions D16, D17 (notes/assumptions/14.md, 15.md). -/
def Obligations.HostMisuseIsRefused : Prop :=
  (∀ (h : Session) (source : Option (List Byte)), h.phase ≠ .constructed → h.load source = .refused .loadNotFirst) ∧
  (∀ (h : Session) (image : List Byte), h.phase = .constructed → image.length > 3584 →
    h.load (some image) = .refused .imageTooLong) ∧
  (∀ h : Session, h.phase = .constructed → h.load none = .refused .loadFailed) ∧
  (∀ (h : Session) (k : Nat) (pressed : Bool), k > 15 → h.setKeyState k pressed = .refused .keyOutOfRange)

/-- R200: `SetKeyState`. That only a true down-to-up transition marks is the spec's own decision D16 (notes/assumptions/14.md). -/
def Obligations.KeyStateIsSetAndReleasesAreMarked : Prop :=
  ∀ (s : State) (k : KeyNum) (pressed : Bool),
    (s.setKeyState k pressed).keyDown k = pressed ∧
    (s.keyDown k = true → pressed = false → (s.setKeyState k pressed).lrk = some k) ∧
    (s.keyDown k = false ∨ pressed = true → (s.setKeyState k pressed).lrk = s.lrk) ∧
    Frame (fun c => c ∈ [Component.key k, .lrk]) s (s.setKeyState k pressed)

/-- R199: the grid of `Display` has 32 rows of 64 cells, row first, the spec's own decision D21 (notes/assumptions/19.md). -/
def Obligations.DisplayIsReadRowFirst : Prop :=
  ∀ s : State, s.display.length = 32 ∧
    ∀ (r : Fin 32) (c : Fin 64), ∃ row, s.display[r.val]? = some row ∧ row.length = 64 ∧ row[c.val]? = some (s.disp.cell r c)
end

