-- ==== Sys2Proof/Laws/Decode.lean ====
section
/-!
SUPPORT. The fields of a word as numbers (spec/30_encoding.md R71), and the bytes of a fetched word (R54).
-/

namespace Sys2Proof

theorem famField_eq (w : Word) : famField w = w.toNat / 4096 := by
  simp [famField, BitVec.toNat_ushiftRight, Nat.shiftRight_eq_div_pow]

theorem val_xField (w : Word) : (xField w).val = w.toNat / 256 % 16 := by
  simp [xField, Fin.ofNat, Nat.shiftRight_eq_div_pow, Nat.and_two_pow_sub_one_eq_mod _ 4]

theorem val_yField (w : Word) : (yField w).val = w.toNat / 16 % 16 := by
  simp [yField, Fin.ofNat, Nat.shiftRight_eq_div_pow, Nat.and_two_pow_sub_one_eq_mod _ 4]

theorem nField_eq (w : Word) : nField w = w.toNat % 16 := by
  simp [nField, Nat.and_two_pow_sub_one_eq_mod _ 4]

theorem toNat_kkField (w : Word) : (kkField w).toNat = w.toNat % 256 := by
  simp [kkField, Nat.and_two_pow_sub_one_eq_mod _ 8]

theorem addrField_eq (w : Word) : addrField w = w.toNat % 4096 := by
  simp [addrField, Nat.and_two_pow_sub_one_eq_mod _ 12]

/-! ### Placed fields as numbers (R83) -/

theorem toNat_or_eq_add {a b : Word} (h : a &&& b = 0) (k : Nat) (hk : a.toNat + b.toNat = k) (hlt : k < 2 ^ 16) :
    (a ||| b).toNat = k := by
  rw [← BitVec.add_eq_or_of_and_eq_zero a b h, BitVec.toNat_add, hk, Nat.mod_eq_of_lt hlt]

theorem toNat_placeX (x : RegIx) : (placeX x).toNat = x.val * 256 := by revert x; decide

theorem toNat_placeY (y : RegIx) : (placeY y).toNat = y.val * 16 := by revert y; decide

theorem toNat_placeKk (kk : Byte) : (placeKk kk).toNat = kk.toNat := by
  have := kk.isLt
  simp only [placeKk, BitVec.toNat_setWidth]; omega

/-! ### Words and bytes -/

/-- The word of two bytes is the high byte times 256 plus the low byte (R54). -/
theorem toNat_wordOfBytes (hi lo : Byte) : (wordOfBytes hi lo).toNat = hi.toNat * 256 + lo.toNat := by
  have h := hi.isLt
  have h' := lo.isLt
  rw [wordOfBytes, BitVec.toNat_or, BitVec.toNat_shiftLeft, BitVec.toNat_setWidth, BitVec.toNat_setWidth,
    Nat.mod_eq_of_lt (show hi.toNat < 2 ^ 16 by omega), Nat.mod_eq_of_lt (show lo.toNat < 2 ^ 16 by omega),
    Nat.mod_eq_of_lt (by rw [Nat.shiftLeft_eq]; omega), ← Nat.shiftLeft_add_eq_or_of_lt (by simpa using h'), Nat.shiftLeft_eq]

theorem wordOfBytes_eq (hi lo : Byte) : wordOfBytes hi lo = BitVec.ofNat 16 (hi.toNat * 256 + lo.toNat) := by
  have h := hi.isLt
  have h' := lo.isLt
  apply BitVec.eq_of_toNat_eq
  rw [toNat_wordOfBytes, BitVec.toNat_ofNat]; omega

theorem decodeFamily0_error {w : Word} {e : DecodeError} (h : decodeFamily0 w = .error e) : e = .unknownOpcode w := by
  unfold decodeFamily0 at h
  split_ifs at h
  exact (Except.error.inj h).symm

theorem decodeFamily8_error {w : Word} {e : DecodeError} (h : decodeFamily8 w = .error e) : e = .unknownOpcode w := by
  unfold decodeFamily8 at h
  split at h
  all_goals first
    | exact (Except.error.inj h).symm
    | cases h

theorem decodeFamilyE_error {w : Word} {e : DecodeError} (h : decodeFamilyE w = .error e) : e = .unknownOpcode w := by
  unfold decodeFamilyE at h
  split_ifs at h
  exact (Except.error.inj h).symm

theorem decodeFamilyF_error {w : Word} {e : DecodeError} (h : decodeFamilyF w = .error e) : e = .unknownOpcode w := by
  unfold decodeFamilyF at h
  dsimp only at h
  split_ifs at h
  exact (Except.error.inj h).symm

/-- A word that decodes to nothing is reported as itself (R76). -/
theorem decode_error {w : Word} {e : DecodeError} (h : decode w = .error e) : e = .unknownOpcode w := by
  unfold decode at h
  split at h
  case h_1 => exact decodeFamily0_error h
  case h_9 => exact decodeFamily8_error h
  case h_15 => exact decodeFamilyE_error h
  case h_16 => exact decodeFamilyF_error h
  all_goals first
    | (split_ifs at h; exact (Except.error.inj h).symm)
    | exact (Except.error.inj h).symm
    | cases h

end Sys2Proof
end

