-- ==== Sys2Proof/Laws/State.lean ====
section
/-!
SUPPORT. What each update of the state leaves in each field, so that no proof unfolds a record update. Registers are read through
`State.reg`; the laws of register reads stand at the end.
-/

namespace Sys2Proof.Machine

variable (s : State)

/-! ### `State.writeBytes` -/

@[simp] theorem State.writeBytes_v (a : Nat) (bs : List Byte) : (s.writeBytes a bs).v = s.v := rfl
@[simp] theorem State.writeBytes_i (a : Nat) (bs : List Byte) : (s.writeBytes a bs).i = s.i := rfl
@[simp] theorem State.writeBytes_pc (a : Nat) (bs : List Byte) : (s.writeBytes a bs).pc = s.pc := rfl
@[simp] theorem State.writeBytes_stack (a : Nat) (bs : List Byte) : (s.writeBytes a bs).stack = s.stack := rfl
@[simp] theorem State.writeBytes_sp (a : Nat) (bs : List Byte) : (s.writeBytes a bs).sp = s.sp := rfl
@[simp] theorem State.writeBytes_dt (a : Nat) (bs : List Byte) : (s.writeBytes a bs).dt = s.dt := rfl
@[simp] theorem State.writeBytes_st (a : Nat) (bs : List Byte) : (s.writeBytes a bs).st = s.st := rfl
@[simp] theorem State.writeBytes_cyc (a : Nat) (bs : List Byte) : (s.writeBytes a bs).cyc = s.cyc := rfl
@[simp] theorem State.writeBytes_tone (a : Nat) (bs : List Byte) : (s.writeBytes a bs).tone = s.tone := rfl
@[simp] theorem State.writeBytes_disp (a : Nat) (bs : List Byte) : (s.writeBytes a bs).disp = s.disp := rfl
@[simp] theorem State.writeBytes_keys (a : Nat) (bs : List Byte) : (s.writeBytes a bs).keys = s.keys := rfl
@[simp] theorem State.writeBytes_lrk (a : Nat) (bs : List Byte) : (s.writeBytes a bs).lrk = s.lrk := rfl
@[simp] theorem State.writeBytes_mem (a : Nat) (bs : List Byte) : (s.writeBytes a bs).mem = s.mem.writeBytes a bs := rfl
@[simp] theorem State.writeBytes_events (a : Nat) (bs : List Byte) : (s.writeBytes a bs).events = s.events := rfl
@[simp] theorem State.writeBytes_drawQueue (a : Nat) (bs : List Byte) : (s.writeBytes a bs).drawQueue = s.drawQueue := rfl
@[simp] theorem State.writeBytes_drawCount (a : Nat) (bs : List Byte) : (s.writeBytes a bs).drawCount = s.drawCount := rfl

/-! ### `State.setReg` -/

@[simp] theorem State.setReg_i (x : RegIx) (b : Byte) : (s.setReg x b).i = s.i := rfl
@[simp] theorem State.setReg_pc (x : RegIx) (b : Byte) : (s.setReg x b).pc = s.pc := rfl
@[simp] theorem State.setReg_stack (x : RegIx) (b : Byte) : (s.setReg x b).stack = s.stack := rfl
@[simp] theorem State.setReg_sp (x : RegIx) (b : Byte) : (s.setReg x b).sp = s.sp := rfl
@[simp] theorem State.setReg_dt (x : RegIx) (b : Byte) : (s.setReg x b).dt = s.dt := rfl
@[simp] theorem State.setReg_st (x : RegIx) (b : Byte) : (s.setReg x b).st = s.st := rfl
@[simp] theorem State.setReg_cyc (x : RegIx) (b : Byte) : (s.setReg x b).cyc = s.cyc := rfl
@[simp] theorem State.setReg_tone (x : RegIx) (b : Byte) : (s.setReg x b).tone = s.tone := rfl
@[simp] theorem State.setReg_disp (x : RegIx) (b : Byte) : (s.setReg x b).disp = s.disp := rfl
@[simp] theorem State.setReg_keys (x : RegIx) (b : Byte) : (s.setReg x b).keys = s.keys := rfl
@[simp] theorem State.setReg_lrk (x : RegIx) (b : Byte) : (s.setReg x b).lrk = s.lrk := rfl
@[simp] theorem State.setReg_mem (x : RegIx) (b : Byte) : (s.setReg x b).mem = s.mem := rfl
@[simp] theorem State.setReg_events (x : RegIx) (b : Byte) : (s.setReg x b).events = s.events := rfl
@[simp] theorem State.setReg_drawQueue (x : RegIx) (b : Byte) : (s.setReg x b).drawQueue = s.drawQueue := rfl
@[simp] theorem State.setReg_drawCount (x : RegIx) (b : Byte) : (s.setReg x b).drawCount = s.drawCount := rfl

/-! ### `State.advance` -/

@[simp] theorem State.advance_v (k : Word) : (s.advance k).v = s.v := rfl
@[simp] theorem State.advance_i (k : Word) : (s.advance k).i = s.i := rfl
@[simp] theorem State.advance_pc (k : Word) : (s.advance k).pc = s.pc + k := rfl
@[simp] theorem State.advance_stack (k : Word) : (s.advance k).stack = s.stack := rfl
@[simp] theorem State.advance_sp (k : Word) : (s.advance k).sp = s.sp := rfl
@[simp] theorem State.advance_dt (k : Word) : (s.advance k).dt = s.dt := rfl
@[simp] theorem State.advance_st (k : Word) : (s.advance k).st = s.st := rfl
@[simp] theorem State.advance_cyc (k : Word) : (s.advance k).cyc = s.cyc := rfl
@[simp] theorem State.advance_tone (k : Word) : (s.advance k).tone = s.tone := rfl
@[simp] theorem State.advance_disp (k : Word) : (s.advance k).disp = s.disp := rfl
@[simp] theorem State.advance_keys (k : Word) : (s.advance k).keys = s.keys := rfl
@[simp] theorem State.advance_lrk (k : Word) : (s.advance k).lrk = s.lrk := rfl
@[simp] theorem State.advance_mem (k : Word) : (s.advance k).mem = s.mem := rfl
@[simp] theorem State.advance_events (k : Word) : (s.advance k).events = s.events := rfl
@[simp] theorem State.advance_drawQueue (k : Word) : (s.advance k).drawQueue = s.drawQueue := rfl
@[simp] theorem State.advance_drawCount (k : Word) : (s.advance k).drawCount = s.drawCount := rfl

/-! ### `State.setPc` -/

@[simp] theorem State.setPc_v (w : Word) : (s.setPc w).v = s.v := rfl
@[simp] theorem State.setPc_i (w : Word) : (s.setPc w).i = s.i := rfl
@[simp] theorem State.setPc_pc (w : Word) : (s.setPc w).pc = w := rfl
@[simp] theorem State.setPc_stack (w : Word) : (s.setPc w).stack = s.stack := rfl
@[simp] theorem State.setPc_sp (w : Word) : (s.setPc w).sp = s.sp := rfl
@[simp] theorem State.setPc_dt (w : Word) : (s.setPc w).dt = s.dt := rfl
@[simp] theorem State.setPc_st (w : Word) : (s.setPc w).st = s.st := rfl
@[simp] theorem State.setPc_cyc (w : Word) : (s.setPc w).cyc = s.cyc := rfl
@[simp] theorem State.setPc_tone (w : Word) : (s.setPc w).tone = s.tone := rfl
@[simp] theorem State.setPc_disp (w : Word) : (s.setPc w).disp = s.disp := rfl
@[simp] theorem State.setPc_keys (w : Word) : (s.setPc w).keys = s.keys := rfl
@[simp] theorem State.setPc_lrk (w : Word) : (s.setPc w).lrk = s.lrk := rfl
@[simp] theorem State.setPc_mem (w : Word) : (s.setPc w).mem = s.mem := rfl
@[simp] theorem State.setPc_events (w : Word) : (s.setPc w).events = s.events := rfl
@[simp] theorem State.setPc_drawQueue (w : Word) : (s.setPc w).drawQueue = s.drawQueue := rfl
@[simp] theorem State.setPc_drawCount (w : Word) : (s.setPc w).drawCount = s.drawCount := rfl

/-! ### `State.skipIf` -/

@[simp] theorem State.skipIf_v (b : Bool) : (s.skipIf b).v = s.v := rfl
@[simp] theorem State.skipIf_i (b : Bool) : (s.skipIf b).i = s.i := rfl
@[simp] theorem State.skipIf_pc (b : Bool) : (s.skipIf b).pc = s.pc + (if b then 4 else 2) := rfl
@[simp] theorem State.skipIf_stack (b : Bool) : (s.skipIf b).stack = s.stack := rfl
@[simp] theorem State.skipIf_sp (b : Bool) : (s.skipIf b).sp = s.sp := rfl
@[simp] theorem State.skipIf_dt (b : Bool) : (s.skipIf b).dt = s.dt := rfl
@[simp] theorem State.skipIf_st (b : Bool) : (s.skipIf b).st = s.st := rfl
@[simp] theorem State.skipIf_cyc (b : Bool) : (s.skipIf b).cyc = s.cyc := rfl
@[simp] theorem State.skipIf_tone (b : Bool) : (s.skipIf b).tone = s.tone := rfl
@[simp] theorem State.skipIf_disp (b : Bool) : (s.skipIf b).disp = s.disp := rfl
@[simp] theorem State.skipIf_keys (b : Bool) : (s.skipIf b).keys = s.keys := rfl
@[simp] theorem State.skipIf_lrk (b : Bool) : (s.skipIf b).lrk = s.lrk := rfl
@[simp] theorem State.skipIf_mem (b : Bool) : (s.skipIf b).mem = s.mem := rfl
@[simp] theorem State.skipIf_events (b : Bool) : (s.skipIf b).events = s.events := rfl
@[simp] theorem State.skipIf_drawQueue (b : Bool) : (s.skipIf b).drawQueue = s.drawQueue := rfl
@[simp] theorem State.skipIf_drawCount (b : Bool) : (s.skipIf b).drawCount = s.drawCount := rfl

/-! ### `State.push` -/

@[simp] theorem State.push_v (w : Word) (h : s.sp.val < 16) : (s.push w h).v = s.v := rfl
@[simp] theorem State.push_i (w : Word) (h : s.sp.val < 16) : (s.push w h).i = s.i := rfl
@[simp] theorem State.push_pc (w : Word) (h : s.sp.val < 16) : (s.push w h).pc = s.pc := rfl
@[simp] theorem State.push_dt (w : Word) (h : s.sp.val < 16) : (s.push w h).dt = s.dt := rfl
@[simp] theorem State.push_st (w : Word) (h : s.sp.val < 16) : (s.push w h).st = s.st := rfl
@[simp] theorem State.push_cyc (w : Word) (h : s.sp.val < 16) : (s.push w h).cyc = s.cyc := rfl
@[simp] theorem State.push_tone (w : Word) (h : s.sp.val < 16) : (s.push w h).tone = s.tone := rfl
@[simp] theorem State.push_disp (w : Word) (h : s.sp.val < 16) : (s.push w h).disp = s.disp := rfl
@[simp] theorem State.push_keys (w : Word) (h : s.sp.val < 16) : (s.push w h).keys = s.keys := rfl
@[simp] theorem State.push_lrk (w : Word) (h : s.sp.val < 16) : (s.push w h).lrk = s.lrk := rfl
@[simp] theorem State.push_mem (w : Word) (h : s.sp.val < 16) : (s.push w h).mem = s.mem := rfl
@[simp] theorem State.push_events (w : Word) (h : s.sp.val < 16) : (s.push w h).events = s.events := rfl
@[simp] theorem State.push_drawQueue (w : Word) (h : s.sp.val < 16) : (s.push w h).drawQueue = s.drawQueue := rfl
@[simp] theorem State.push_drawCount (w : Word) (h : s.sp.val < 16) : (s.push w h).drawCount = s.drawCount := rfl

/-! ### `State.pop` -/

@[simp] theorem State.pop_v (h : 0 < s.sp.val) : (s.pop h).v = s.v := rfl
@[simp] theorem State.pop_i (h : 0 < s.sp.val) : (s.pop h).i = s.i := rfl
@[simp] theorem State.pop_pc (h : 0 < s.sp.val) : (s.pop h).pc = s.pc := rfl
@[simp] theorem State.pop_stack (h : 0 < s.sp.val) : (s.pop h).stack = s.stack := rfl
@[simp] theorem State.pop_dt (h : 0 < s.sp.val) : (s.pop h).dt = s.dt := rfl
@[simp] theorem State.pop_st (h : 0 < s.sp.val) : (s.pop h).st = s.st := rfl
@[simp] theorem State.pop_cyc (h : 0 < s.sp.val) : (s.pop h).cyc = s.cyc := rfl
@[simp] theorem State.pop_tone (h : 0 < s.sp.val) : (s.pop h).tone = s.tone := rfl
@[simp] theorem State.pop_disp (h : 0 < s.sp.val) : (s.pop h).disp = s.disp := rfl
@[simp] theorem State.pop_keys (h : 0 < s.sp.val) : (s.pop h).keys = s.keys := rfl
@[simp] theorem State.pop_lrk (h : 0 < s.sp.val) : (s.pop h).lrk = s.lrk := rfl
@[simp] theorem State.pop_mem (h : 0 < s.sp.val) : (s.pop h).mem = s.mem := rfl
@[simp] theorem State.pop_events (h : 0 < s.sp.val) : (s.pop h).events = s.events := rfl
@[simp] theorem State.pop_drawQueue (h : 0 < s.sp.val) : (s.pop h).drawQueue = s.drawQueue := rfl
@[simp] theorem State.pop_drawCount (h : 0 < s.sp.val) : (s.pop h).drawCount = s.drawCount := rfl

/-! ### `State.consumeDraw` -/

@[simp] theorem State.consumeDraw_v : s.consumeDraw.v = s.v := rfl
@[simp] theorem State.consumeDraw_i : s.consumeDraw.i = s.i := rfl
@[simp] theorem State.consumeDraw_pc : s.consumeDraw.pc = s.pc := rfl
@[simp] theorem State.consumeDraw_stack : s.consumeDraw.stack = s.stack := rfl
@[simp] theorem State.consumeDraw_sp : s.consumeDraw.sp = s.sp := rfl
@[simp] theorem State.consumeDraw_dt : s.consumeDraw.dt = s.dt := rfl
@[simp] theorem State.consumeDraw_st : s.consumeDraw.st = s.st := rfl
@[simp] theorem State.consumeDraw_cyc : s.consumeDraw.cyc = s.cyc := rfl
@[simp] theorem State.consumeDraw_tone : s.consumeDraw.tone = s.tone := rfl
@[simp] theorem State.consumeDraw_disp : s.consumeDraw.disp = s.disp := rfl
@[simp] theorem State.consumeDraw_keys : s.consumeDraw.keys = s.keys := rfl
@[simp] theorem State.consumeDraw_lrk : s.consumeDraw.lrk = s.lrk := rfl
@[simp] theorem State.consumeDraw_mem : s.consumeDraw.mem = s.mem := rfl
@[simp] theorem State.consumeDraw_events : s.consumeDraw.events = s.events := rfl
@[simp] theorem State.consumeDraw_drawQueue : s.consumeDraw.drawQueue = s.drawQueue.tail := rfl
@[simp] theorem State.consumeDraw_drawCount : s.consumeDraw.drawCount = s.drawCount + 1 := rfl

/-! ### `State.setFlag` -/

@[simp] theorem State.setFlag_i (f : Bool) : (s.setFlag f).i = s.i := rfl
@[simp] theorem State.setFlag_pc (f : Bool) : (s.setFlag f).pc = s.pc := rfl
@[simp] theorem State.setFlag_stack (f : Bool) : (s.setFlag f).stack = s.stack := rfl
@[simp] theorem State.setFlag_sp (f : Bool) : (s.setFlag f).sp = s.sp := rfl
@[simp] theorem State.setFlag_dt (f : Bool) : (s.setFlag f).dt = s.dt := rfl
@[simp] theorem State.setFlag_st (f : Bool) : (s.setFlag f).st = s.st := rfl
@[simp] theorem State.setFlag_cyc (f : Bool) : (s.setFlag f).cyc = s.cyc := rfl
@[simp] theorem State.setFlag_tone (f : Bool) : (s.setFlag f).tone = s.tone := rfl
@[simp] theorem State.setFlag_disp (f : Bool) : (s.setFlag f).disp = s.disp := rfl
@[simp] theorem State.setFlag_keys (f : Bool) : (s.setFlag f).keys = s.keys := rfl
@[simp] theorem State.setFlag_lrk (f : Bool) : (s.setFlag f).lrk = s.lrk := rfl
@[simp] theorem State.setFlag_mem (f : Bool) : (s.setFlag f).mem = s.mem := rfl
@[simp] theorem State.setFlag_events (f : Bool) : (s.setFlag f).events = s.events := rfl
@[simp] theorem State.setFlag_drawQueue (f : Bool) : (s.setFlag f).drawQueue = s.drawQueue := rfl
@[simp] theorem State.setFlag_drawCount (f : Bool) : (s.setFlag f).drawCount = s.drawCount := rfl

/-! ### `State.setRegThenFlag` -/

@[simp] theorem State.setRegThenFlag_i (x : RegIx) (b : Byte) (f : Bool) : (s.setRegThenFlag x b f).i = s.i := rfl
@[simp] theorem State.setRegThenFlag_pc (x : RegIx) (b : Byte) (f : Bool) : (s.setRegThenFlag x b f).pc = s.pc := rfl
@[simp] theorem State.setRegThenFlag_stack (x : RegIx) (b : Byte) (f : Bool) : (s.setRegThenFlag x b f).stack = s.stack := rfl
@[simp] theorem State.setRegThenFlag_sp (x : RegIx) (b : Byte) (f : Bool) : (s.setRegThenFlag x b f).sp = s.sp := rfl
@[simp] theorem State.setRegThenFlag_dt (x : RegIx) (b : Byte) (f : Bool) : (s.setRegThenFlag x b f).dt = s.dt := rfl
@[simp] theorem State.setRegThenFlag_st (x : RegIx) (b : Byte) (f : Bool) : (s.setRegThenFlag x b f).st = s.st := rfl
@[simp] theorem State.setRegThenFlag_cyc (x : RegIx) (b : Byte) (f : Bool) : (s.setRegThenFlag x b f).cyc = s.cyc := rfl
@[simp] theorem State.setRegThenFlag_tone (x : RegIx) (b : Byte) (f : Bool) : (s.setRegThenFlag x b f).tone = s.tone := rfl
@[simp] theorem State.setRegThenFlag_disp (x : RegIx) (b : Byte) (f : Bool) : (s.setRegThenFlag x b f).disp = s.disp := rfl
@[simp] theorem State.setRegThenFlag_keys (x : RegIx) (b : Byte) (f : Bool) : (s.setRegThenFlag x b f).keys = s.keys := rfl
@[simp] theorem State.setRegThenFlag_lrk (x : RegIx) (b : Byte) (f : Bool) : (s.setRegThenFlag x b f).lrk = s.lrk := rfl
@[simp] theorem State.setRegThenFlag_mem (x : RegIx) (b : Byte) (f : Bool) : (s.setRegThenFlag x b f).mem = s.mem := rfl
@[simp] theorem State.setRegThenFlag_events (x : RegIx) (b : Byte) (f : Bool) : (s.setRegThenFlag x b f).events = s.events := rfl
@[simp] theorem State.setRegThenFlag_drawQueue (x : RegIx) (b : Byte) (f : Bool) : (s.setRegThenFlag x b f).drawQueue = s.drawQueue := rfl
@[simp] theorem State.setRegThenFlag_drawCount (x : RegIx) (b : Byte) (f : Bool) : (s.setRegThenFlag x b f).drawCount = s.drawCount := rfl

/-! ### `State.loadRegBlock` -/

@[simp] theorem State.loadRegBlock_i (x : RegIx) (a : Nat) : (s.loadRegBlock x a).i = s.i := by
  unfold State.loadRegBlock; rfl
@[simp] theorem State.loadRegBlock_pc (x : RegIx) (a : Nat) : (s.loadRegBlock x a).pc = s.pc := by
  unfold State.loadRegBlock; rfl
@[simp] theorem State.loadRegBlock_stack (x : RegIx) (a : Nat) : (s.loadRegBlock x a).stack = s.stack := by
  unfold State.loadRegBlock; rfl
@[simp] theorem State.loadRegBlock_sp (x : RegIx) (a : Nat) : (s.loadRegBlock x a).sp = s.sp := by
  unfold State.loadRegBlock; rfl
@[simp] theorem State.loadRegBlock_dt (x : RegIx) (a : Nat) : (s.loadRegBlock x a).dt = s.dt := by
  unfold State.loadRegBlock; rfl
@[simp] theorem State.loadRegBlock_st (x : RegIx) (a : Nat) : (s.loadRegBlock x a).st = s.st := by
  unfold State.loadRegBlock; rfl
@[simp] theorem State.loadRegBlock_cyc (x : RegIx) (a : Nat) : (s.loadRegBlock x a).cyc = s.cyc := by
  unfold State.loadRegBlock; rfl
@[simp] theorem State.loadRegBlock_tone (x : RegIx) (a : Nat) : (s.loadRegBlock x a).tone = s.tone := by
  unfold State.loadRegBlock; rfl
@[simp] theorem State.loadRegBlock_disp (x : RegIx) (a : Nat) : (s.loadRegBlock x a).disp = s.disp := by
  unfold State.loadRegBlock; rfl
@[simp] theorem State.loadRegBlock_keys (x : RegIx) (a : Nat) : (s.loadRegBlock x a).keys = s.keys := by
  unfold State.loadRegBlock; rfl
@[simp] theorem State.loadRegBlock_lrk (x : RegIx) (a : Nat) : (s.loadRegBlock x a).lrk = s.lrk := by
  unfold State.loadRegBlock; rfl
@[simp] theorem State.loadRegBlock_mem (x : RegIx) (a : Nat) : (s.loadRegBlock x a).mem = s.mem := by
  unfold State.loadRegBlock; rfl
@[simp] theorem State.loadRegBlock_events (x : RegIx) (a : Nat) : (s.loadRegBlock x a).events = s.events := by
  unfold State.loadRegBlock; rfl
@[simp] theorem State.loadRegBlock_drawQueue (x : RegIx) (a : Nat) : (s.loadRegBlock x a).drawQueue = s.drawQueue := by
  unfold State.loadRegBlock; rfl
@[simp] theorem State.loadRegBlock_drawCount (x : RegIx) (a : Nat) : (s.loadRegBlock x a).drawCount = s.drawCount := by
  unfold State.loadRegBlock; rfl

/-! ### Register reads -/

theorem State.reg_setReg (x r : RegIx) (b : Byte) : (s.setReg x b).reg r = if r = x then b else s.reg r := by
  by_cases h : r = x
  · subst h; simp [State.reg, State.setReg]
  · have : x.val ≠ r.val := fun e => h (Fin.ext e.symm)
    simp [State.reg, State.setReg, h, this]

@[simp] theorem State.reg_setReg_same (x : RegIx) (b : Byte) : (s.setReg x b).reg x = b := by
  simp [State.reg_setReg]

theorem State.reg_setReg_ne {x r : RegIx} (h : r ≠ x) (b : Byte) : (s.setReg x b).reg r = s.reg r := by
  simp [State.reg_setReg, h]

@[simp] theorem State.reg_setFlag_same (f : Bool) : (s.setFlag f).reg 15 = flagByte f :=
  State.reg_setReg_same s flagReg (flagByte f)

theorem State.reg_setFlag_ne {r : RegIx} (h : r ≠ 15) (f : Bool) : (s.setFlag f).reg r = s.reg r :=
  State.reg_setReg_ne s h (flagByte f)

/-- The flag is written last, so it is what `V[15]` holds, whatever the destination (R132). -/
@[simp] theorem State.reg_setRegThenFlag_flag (x : RegIx) (b : Byte) (f : Bool) :
    (s.setRegThenFlag x b f).reg 15 = flagByte f :=
  State.reg_setFlag_same (s.setReg x b) f

theorem State.reg_setRegThenFlag_dest {x : RegIx} (h : x ≠ 15) (b : Byte) (f : Bool) :
    (s.setRegThenFlag x b f).reg x = b := by
  rw [State.setRegThenFlag, State.reg_setFlag_ne _ h, State.reg_setReg_same]

theorem State.reg_setRegThenFlag_other {x r : RegIx} (h : r ≠ x) (h' : r ≠ 15) (b : Byte) (f : Bool) :
    (s.setRegThenFlag x b f).reg r = s.reg r := by
  rw [State.setRegThenFlag, State.reg_setFlag_ne _ h', State.reg_setReg_ne _ h]

/-- `Fx65` replaces the registers of the block and no other (R178). -/
theorem State.reg_loadRegBlock (x r : RegIx) (a : Nat) :
    (s.loadRegBlock x a).reg r = if r.val ≤ x.val then s.readByte (a + r.val) else s.reg r := by
  simp [State.reg, State.loadRegBlock, State.loadedRegs]

@[simp] theorem State.reg_writeBytes (r : RegIx) (a : Nat) (bs : List Byte) : (s.writeBytes a bs).reg r = s.reg r := rfl
@[simp] theorem State.reg_advance (r : RegIx) (k : Word) : (s.advance k).reg r = s.reg r := rfl
@[simp] theorem State.reg_setPc (r : RegIx) (w : Word) : (s.setPc w).reg r = s.reg r := rfl
@[simp] theorem State.reg_skipIf (r : RegIx) (b : Bool) : (s.skipIf b).reg r = s.reg r := rfl
@[simp] theorem State.reg_push (r : RegIx) (w : Word) (h : s.sp.val < 16) : (s.push w h).reg r = s.reg r := rfl
@[simp] theorem State.reg_pop (r : RegIx) (h : 0 < s.sp.val) : (s.pop h).reg r = s.reg r := rfl
@[simp] theorem State.reg_consumeDraw (r : RegIx) : s.consumeDraw.reg r = s.reg r := rfl

/-! ### Bytes, slots and keys -/

@[simp] theorem State.slot_writeBytes (n : Fin 16) (a : Nat) (bs : List Byte) : (s.writeBytes a bs).slot n = s.slot n := rfl
@[simp] theorem State.keyDown_writeBytes (n : KeyNum) (a : Nat) (bs : List Byte) : (s.writeBytes a bs).keyDown n = s.keyDown n := rfl
@[simp] theorem State.readByte_setReg (k : Nat) (x : RegIx) (b : Byte) : (s.setReg x b).readByte k = s.readByte k := rfl
@[simp] theorem State.slot_setReg (n : Fin 16) (x : RegIx) (b : Byte) : (s.setReg x b).slot n = s.slot n := rfl
@[simp] theorem State.keyDown_setReg (n : KeyNum) (x : RegIx) (b : Byte) : (s.setReg x b).keyDown n = s.keyDown n := rfl
@[simp] theorem State.readByte_advance (k : Nat) (w : Word) : (s.advance w).readByte k = s.readByte k := rfl
@[simp] theorem State.slot_advance (n : Fin 16) (k : Word) : (s.advance k).slot n = s.slot n := rfl
@[simp] theorem State.keyDown_advance (n : KeyNum) (k : Word) : (s.advance k).keyDown n = s.keyDown n := rfl
@[simp] theorem State.readByte_setPc (k : Nat) (w : Word) : (s.setPc w).readByte k = s.readByte k := rfl
@[simp] theorem State.slot_setPc (n : Fin 16) (w : Word) : (s.setPc w).slot n = s.slot n := rfl
@[simp] theorem State.keyDown_setPc (n : KeyNum) (w : Word) : (s.setPc w).keyDown n = s.keyDown n := rfl
@[simp] theorem State.readByte_skipIf (k : Nat) (b : Bool) : (s.skipIf b).readByte k = s.readByte k := rfl
@[simp] theorem State.slot_skipIf (n : Fin 16) (b : Bool) : (s.skipIf b).slot n = s.slot n := rfl
@[simp] theorem State.keyDown_skipIf (n : KeyNum) (b : Bool) : (s.skipIf b).keyDown n = s.keyDown n := rfl
@[simp] theorem State.readByte_push (k : Nat) (w : Word) (h : s.sp.val < 16) : (s.push w h).readByte k = s.readByte k := rfl
@[simp] theorem State.keyDown_push (n : KeyNum) (w : Word) (h : s.sp.val < 16) : (s.push w h).keyDown n = s.keyDown n := rfl
@[simp] theorem State.readByte_pop (k : Nat) (h : 0 < s.sp.val) : (s.pop h).readByte k = s.readByte k := rfl
@[simp] theorem State.slot_pop (n : Fin 16) (h : 0 < s.sp.val) : (s.pop h).slot n = s.slot n := rfl
@[simp] theorem State.keyDown_pop (n : KeyNum) (h : 0 < s.sp.val) : (s.pop h).keyDown n = s.keyDown n := rfl
@[simp] theorem State.readByte_consumeDraw (k : Nat) : s.consumeDraw.readByte k = s.readByte k := rfl
@[simp] theorem State.slot_consumeDraw (n : Fin 16) : s.consumeDraw.slot n = s.slot n := rfl
@[simp] theorem State.keyDown_consumeDraw (n : KeyNum) : s.consumeDraw.keyDown n = s.keyDown n := rfl
@[simp] theorem State.readByte_setFlag (k : Nat) (f : Bool) : (s.setFlag f).readByte k = s.readByte k := rfl
@[simp] theorem State.slot_setFlag (n : Fin 16) (f : Bool) : (s.setFlag f).slot n = s.slot n := rfl
@[simp] theorem State.keyDown_setFlag (n : KeyNum) (f : Bool) : (s.setFlag f).keyDown n = s.keyDown n := rfl
@[simp] theorem State.readByte_setRegThenFlag (k : Nat) (x : RegIx) (b : Byte) (f : Bool) : (s.setRegThenFlag x b f).readByte k = s.readByte k := rfl
@[simp] theorem State.slot_setRegThenFlag (n : Fin 16) (x : RegIx) (b : Byte) (f : Bool) : (s.setRegThenFlag x b f).slot n = s.slot n := rfl
@[simp] theorem State.keyDown_setRegThenFlag (n : KeyNum) (x : RegIx) (b : Byte) (f : Bool) : (s.setRegThenFlag x b f).keyDown n = s.keyDown n := rfl
@[simp] theorem State.readByte_loadRegBlock (k : Nat) (x : RegIx) (a : Nat) : (s.loadRegBlock x a).readByte k = s.readByte k := by
  unfold State.loadRegBlock; rfl
@[simp] theorem State.slot_loadRegBlock (n : Fin 16) (x : RegIx) (a : Nat) : (s.loadRegBlock x a).slot n = s.slot n := by
  unfold State.loadRegBlock; rfl
@[simp] theorem State.keyDown_loadRegBlock (n : KeyNum) (x : RegIx) (a : Nat) : (s.loadRegBlock x a).keyDown n = s.keyDown n := by
  unfold State.loadRegBlock; rfl

/-- A push writes the slot at `SP` and no other (R103). -/
theorem State.slot_push (w : Word) (h : s.sp.val < 16) (k : Fin 16) :
    (s.push w h).slot k = if k.val = s.sp.val then w else s.slot k := by
  simp [State.slot, State.push, Vector.getElem_set, eq_comm]

@[simp] theorem State.push_sp (w : Word) (h : s.sp.val < 16) : (s.push w h).sp.val = s.sp.val + 1 := rfl

@[simp] theorem State.pop_sp (h : 0 < s.sp.val) : (s.pop h).sp.val = s.sp.val - 1 := rfl

/-! ### `State.constructed` -/

section
variable (q : List Byte) (n : Nat)

@[simp] theorem State.constructed_v : (State.constructed q n).v = Vector.replicate 16 0 := rfl
@[simp] theorem State.constructed_i : (State.constructed q n).i = 0 := rfl
@[simp] theorem State.constructed_pc : (State.constructed q n).pc = 0x200 := rfl
@[simp] theorem State.constructed_stack : (State.constructed q n).stack = Vector.replicate 16 0 := rfl
@[simp] theorem State.constructed_sp : (State.constructed q n).sp = 0 := rfl
@[simp] theorem State.constructed_dt : (State.constructed q n).dt = 0 := rfl
@[simp] theorem State.constructed_st : (State.constructed q n).st = 0 := rfl
@[simp] theorem State.constructed_cyc : (State.constructed q n).cyc = 0 := rfl
@[simp] theorem State.constructed_tone : (State.constructed q n).tone = false := rfl
@[simp] theorem State.constructed_disp : (State.constructed q n).disp = Vector.replicate 32 (Vector.replicate 64 false) := rfl
@[simp] theorem State.constructed_keys : (State.constructed q n).keys = Vector.replicate 16 false := rfl
@[simp] theorem State.constructed_lrk : (State.constructed q n).lrk = none := rfl
@[simp] theorem State.constructed_mem : (State.constructed q n).mem = [] := rfl
@[simp] theorem State.constructed_events : (State.constructed q n).events = [] := rfl
@[simp] theorem State.constructed_drawQueue : (State.constructed q n).drawQueue = q := rfl
@[simp] theorem State.constructed_drawCount : (State.constructed q n).drawCount = n := rfl

end

end Sys2Proof.Machine
end

