-- ==== Sys2Proof/Laws/Draw.lean ====
section
/-!
SUPPORT. What drawing does to the cells (spec/43_draw.md R151 (f), R152): the laws of a cell, of a row and of a sprite. The cells of
one draw are distinct, so each is toggled at most once.
-/

namespace Sys2Proof.Machine

theorem Display.cell_toggle (d : Display) (r r' : Fin 32) (c c' : Fin 64) :
    (Display.toggle d r c).cell r' c' = if r' = r ∧ c' = c then !d.cell r' c' else d.cell r' c' := by
  by_cases hr : r' = r
  · subst hr
    by_cases hc : c' = c
    · subst hc; simp [Display.toggle, Display.cell]
    · have : c.val ≠ c'.val := fun e => hc (Fin.ext e.symm)
      simp [Display.toggle, Display.cell, hc, this]
  · have : r.val ≠ r'.val := fun e => hr (Fin.ext e.symm)
    simp [Display.toggle, Display.cell, hr, this]

@[simp] theorem Display.cell_clear (r : Fin 32) (c : Fin 64) : Display.clear.cell r c = false := by
  simp [Display.cell, Display.clear]

theorem Display.ext_cell {d d' : Display} (h : ∀ r c, d.cell r c = d'.cell r c) : d = d' := by
  ext i hi j hj
  exact h ⟨i, hi⟩ ⟨j, hj⟩

/-- Some of the first `k` columns of a row's byte has a 1 that lands on display column `c`. -/
def RowCovers (b startX : Byte) (k : Nat) (c : Fin 64) : Prop :=
  ∃ col < k, c = spriteColumn startX col ∧ spriteBit b col = true

theorem rowCovers_succ {b startX : Byte} {k : Nat} {c : Fin 64} :
    RowCovers b startX (k + 1) c ↔ RowCovers b startX k c ∨ (c = spriteColumn startX k ∧ spriteBit b k = true) := by
  constructor
  · rintro ⟨col, hc, hh⟩
    by_cases e : col = k
    · subst e; exact .inr hh
    · exact .inl ⟨col, by omega, hh⟩
  · rintro (⟨col, hc, hh⟩ | hh)
    · exact ⟨col, by omega, hh⟩
    · exact ⟨k, by omega, hh⟩

/-- The eight columns of a row are distinct. -/
theorem not_rowCovers_next {b startX : Byte} {k : Nat} (hk : k < 8) : ¬ RowCovers b startX k (spriteColumn startX k) := by
  rintro ⟨col, hc, e, -⟩
  simp only [spriteColumn, Fin.ofNat, Fin.ext_iff] at e
  omega

/-- The first `k` columns of a row, from any display and collision. -/
theorem drawColumns_spec (b startX : Byte) (r : Fin 32) (dc : Display × Bool) (k : Nat) (hk : k ≤ 8) :
    let out := (List.range k).foldl (fun dc col => drawBit r (spriteColumn startX col) (spriteBit b col) dc) dc
    (∀ r' c', out.1.cell r' c' = true ↔ ¬ (dc.1.cell r' c' = true ↔ (r' = r ∧ RowCovers b startX k c'))) ∧
      (out.2 = true ↔ dc.2 = true ∨ ∃ c, dc.1.cell r c = true ∧ RowCovers b startX k c) := by
  intro out
  induction k with
  | zero => simp [out, RowCovers]
  | succ k ih =>
    obtain ⟨cells, coll⟩ := ih (by omega)
    have hout : out = drawBit r (spriteColumn startX k) (spriteBit b k)
        ((List.range k).foldl (fun dc col => drawBit r (spriteColumn startX col) (spriteBit b col) dc) dc) := by
      simp [out, List.range_succ]
    rw [hout]
    generalize (List.range k).foldl _ dc = e at cells coll ⊢
    have hnew : e.1.cell r (spriteColumn startX k) = true ↔ dc.1.cell r (spriteColumn startX k) = true := by
      rw [cells]; simp [not_rowCovers_next (show k < 8 by omega)]
    unfold drawBit
    by_cases hb : spriteBit b k = true
    · simp only [hb, if_true, rowCovers_succ, and_true]
      refine ⟨fun r' c' => ?_, ?_⟩
      · rw [Display.cell_toggle]
        split
        · next hh =>
          obtain ⟨rfl, rfl⟩ := hh
          rw [Bool.not_eq_true', ← Bool.not_eq_true, hnew]; simp
        · next hh =>
          rw [cells]
          by_cases h : r' = r <;> simp_all
      · rw [Bool.or_eq_true, coll, hnew]
        constructor
        · rintro ((h | ⟨c, h, h'⟩) | h)
          · exact .inl h
          · exact .inr ⟨c, h, .inl h'⟩
          · exact .inr ⟨_, h, .inr rfl⟩
        · rintro (h | ⟨c, h, h' | rfl⟩)
          · exact .inl (.inl h)
          · exact .inl (.inr ⟨c, h, h'⟩)
          · exact .inr h
    · simpa [hb, rowCovers_succ] using ⟨cells, coll⟩

/-- What one sprite row does. -/
theorem drawRow_spec (b startX : Byte) (r : Fin 32) (dc : Display × Bool) :
    (∀ r' c', (drawRow b startX r dc).1.cell r' c' = true ↔ ¬ (dc.1.cell r' c' = true ↔ (r' = r ∧ RowCovers b startX 8 c'))) ∧
      ((drawRow b startX r dc).2 = true ↔ dc.2 = true ∨ ∃ c, dc.1.cell r c = true ∧ RowCovers b startX 8 c) :=
  drawColumns_spec b startX r dc 8 le_rfl

/-- A sprite grows by its last row. -/
theorem drawSprite_succ (m : Memory) (base : Nat) (startX startY : Byte) (n : Nat) (d : Display) :
    drawSprite m base startX startY (n + 1) d =
      drawRow (m.read (base + n)) startX (spriteRow startY n) (drawSprite m base startX startY n d) := by
  simp [drawSprite, List.range_succ]

@[simp] theorem drawSprite_zero (m : Memory) (base : Nat) (startX startY : Byte) (d : Display) :
    drawSprite m base startX startY 0 d = (d, false) := rfl

/-- The rows of a sprite of up to 32 rows are distinct. -/
theorem spriteRow_ne {startY : Byte} {row n : Nat} (h : row < n) (hn : n < 32) : spriteRow startY n ≠ spriteRow startY row := by
  intro e
  simp only [spriteRow, Fin.ofNat, Fin.ext_iff] at e
  omega

end Sys2Proof.Machine
end

