-- ==== Sys2Proof/Laws/Memory.lean ====
section
/-!
SUPPORT. The laws of memory: a read after a write, and that every operation keeps the canonical form.
-/

namespace Sys2Proof.Machine

namespace Memory

theorem wf_nil : wf [] := ⟨List.Pairwise.nil, by simp⟩

theorem wf_tail {c : Host.Cell} {m : Memory} (h : wf (c :: m)) : wf m :=
  ⟨(List.pairwise_cons.mp h.1).2, fun d hd => h.2 d (List.mem_cons_of_mem c hd)⟩

/-- An address below every listed one reads as unlisted. -/
theorem read_of_forall_gt {m : Memory} {a : Nat} (h : ∀ c ∈ m, a < c.1) : m.read a = unlisted a := by
  induction m with
  | nil => rfl
  | cons c m ih =>
    have hc := h c (List.mem_cons_self ..)
    rw [read, if_neg (by omega)]
    exact ih fun d hd => h d (List.mem_cons_of_mem c hd)

theorem read_entry_same {m : Memory} {a : Nat} (b : Byte) (h : ∀ c ∈ m, a < c.1) : (entry a b m).read a = b := by
  unfold entry
  split
  · next e => rw [read_of_forall_gt h, e]
  · simp [read]

theorem read_entry_other {m : Memory} {a a' : Nat} (b : Byte) (h : a' ≠ a) : (entry a b m).read a' = m.read a' := by
  unfold entry
  split
  · rfl
  · rw [read, if_neg (fun e => h e.symm)]

/-- R55: the byte written is the byte read. -/
theorem read_write_same {m : Memory} (a : Nat) (b : Byte) (h : m.wf) : (m.write a b).read a = b := by
  induction m with
  | nil => exact read_entry_same b (by simp)
  | cons c m ih =>
    have hm := (List.pairwise_cons.mp h.1).1
    rw [write]
    split
    · rw [read, if_neg (by omega)]; exact ih (wf_tail h)
    · split
      · exact read_entry_same b fun d hd => by have := hm d hd; omega
      · refine read_entry_same b fun d hd => ?_
        rcases List.mem_cons.mp hd with rfl | hd
        · omega
        · have := hm d hd; omega

/-- R55: a write changes nothing else. -/
theorem read_write_other (m : Memory) {a a' : Nat} (b : Byte) (h : a' ≠ a) : (m.write a b).read a' = m.read a' := by
  induction m with
  | nil => exact read_entry_other b h
  | cons c m ih =>
    rw [write]
    split
    · rw [read, read, ih]
    · split
      · rw [read_entry_other b h, read, if_neg (by omega)]
      · exact read_entry_other b h

theorem mem_entry {m : Memory} {a : Nat} {b : Byte} {c : Host.Cell} (h : c ∈ entry a b m) :
    (c = (a, b) ∧ b ≠ unlisted a) ∨ c ∈ m := by
  unfold entry at h
  split at h
  · exact .inr h
  · next e => exact (List.mem_cons.mp h).imp (fun hc => ⟨hc, e⟩) id

theorem mem_write {m : Memory} {a : Nat} {b : Byte} {c : Host.Cell} (h : c ∈ m.write a b) :
    (c = (a, b) ∧ b ≠ unlisted a) ∨ c ∈ m := by
  induction m with
  | nil => exact mem_entry h
  | cons d m ih =>
    rw [write] at h
    split at h
    · rcases List.mem_cons.mp h with rfl | h
      · exact .inr (List.mem_cons_self ..)
      · exact (ih h).imp id (List.mem_cons_of_mem d)
    · split at h
      · exact (mem_entry h).imp id (List.mem_cons_of_mem d)
      · exact mem_entry h

theorem pairwise_entry {m : Memory} {a : Nat} {b : Byte} (hp : m.Pairwise fun c d => c.1 < d.1) (h : ∀ c ∈ m, a < c.1) :
    (entry a b m).Pairwise fun c d => c.1 < d.1 := by
  unfold entry
  split
  · exact hp
  · exact List.pairwise_cons.mpr ⟨h, hp⟩

/-- A write inside the memory keeps the canonical form. -/
theorem wf_write {m : Memory} {a : Nat} (b : Byte) (h : m.wf) (ha : a < 0x1000) : (m.write a b).wf := by
  refine ⟨?_, fun c hc => ?_⟩
  · have hp := h.1
    clear h
    induction m with
    | nil => exact pairwise_entry List.Pairwise.nil (by simp)
    | cons c m ih =>
      obtain ⟨hm, hp'⟩ := List.pairwise_cons.mp hp
      rw [write]
      split
      · refine List.pairwise_cons.mpr ⟨fun d hd => ?_, ih hp'⟩
        rcases mem_write hd with ⟨rfl, -⟩ | hd
        · assumption
        · exact hm d hd
      · split
        · exact pairwise_entry hp' fun d hd => by have := hm d hd; omega
        · refine pairwise_entry hp fun d hd => ?_
          rcases List.mem_cons.mp hd with rfl | hd
          · omega
          · have := hm d hd; omega
  · rcases mem_write hc with ⟨rfl, hb⟩ | hc
    · exact ⟨ha, hb⟩
    · exact h.2 c hc

theorem wf_writeBytes {m : Memory} {a : Nat} {bs : List Byte} (h : m.wf) (ha : a + bs.length ≤ 0x1000) :
    (m.writeBytes a bs).wf := by
  induction bs generalizing m a with
  | nil => exact h
  | cons b bs ih =>
    rw [List.length_cons] at ha
    exact ih (wf_write b h (by omega)) (by omega)

/-- Successive writes change no byte outside their range. -/
theorem read_writeBytes_outside {m : Memory} {a a' : Nat} {bs : List Byte} (h : ¬ (a ≤ a' ∧ a' < a + bs.length)) :
    (m.writeBytes a bs).read a' = m.read a' := by
  induction bs generalizing m a with
  | nil => rfl
  | cons b bs ih =>
    rw [List.length_cons] at h
    rw [writeBytes, ih (by omega), read_write_other m b (by omega)]

/-- Each of successive writes is read back. -/
theorem read_writeBytes_inside {m : Memory} {a : Nat} {bs : List Byte} (h : m.wf) (ha : a + bs.length ≤ 0x1000) (k : Nat)
    (hk : k < bs.length) : (m.writeBytes a bs).read (a + k) = bs[k] := by
  induction bs generalizing m a k with
  | nil => simp at hk
  | cons b bs ih =>
    rw [List.length_cons] at ha hk
    rw [writeBytes]
    cases k with
    | zero =>
      rw [read_writeBytes_outside (by omega)]
      exact read_write_same a b h
    | succ k =>
      have := ih (a := a + 1) (wf_write b h (a := a) (by omega)) (by omega) k (by omega)
      rw [show a + (k + 1) = a + 1 + k by omega, this]
      simp

/-- The font is put back and nothing else changes (R197). -/
theorem read_installFont (m : Memory) (a : Nat) : m.installFont.read a = if a < 80 then unlisted a else m.read a := by
  induction m with
  | nil => simp [installFont, read]
  | cons c m ih =>
    rw [installFont] at ih ⊢
    by_cases hc : 80 ≤ c.1
    · rw [List.filter_cons_of_pos (by simpa using hc), read, ih, read]
      grind
    · rw [List.filter_cons_of_neg (by simpa using hc), ih, read]
      grind

theorem wf_installFont {m : Memory} (h : m.wf) : m.installFont.wf :=
  ⟨h.1.filter _, fun c hc => h.2 c (List.mem_of_mem_filter hc)⟩

end Memory

end Sys2Proof.Machine
end

