-- ==== Sys2Proof/Laws/Ops.lean ====
section
/-!
SUPPORT. What the shared operations of the meanings can do: the range check, the two ALU endings, the frames of the updates.
-/

namespace Sys2Proof.Machine

theorem outOfRange_iff (base n : Nat) : outOfRange base n = true ↔ n ≠ 0 ∧ base + n - 1 > 0xFFF := by
  simp [outOfRange]

theorem outOfRange_eq_false_iff (base n : Nat) : outOfRange base n = false ↔ n = 0 ∨ base + n ≤ 0x1000 := by
  rw [← Bool.not_eq_true, outOfRange_iff]; omega

/-- A memory access that goes on had all its bytes in range, and ends in the state given (R56). -/
theorem accessing_eq_next_iff {base n : Nat} {after t : State} :
    accessing base n after = .next t ↔ (n = 0 ∨ base + n ≤ 0x1000) ∧ t = after := by
  unfold accessing
  split
  · next h => rw [outOfRange_iff] at h; simp [raise]; omega
  · next h =>
    have := (outOfRange_eq_false_iff base n).mp (Bool.not_eq_true _ ▸ h)
    simp only [Host.Outcome.next.injEq, eq_comm (a := after)]
    exact ⟨fun e => ⟨this, e⟩, fun e => e.2⟩

/-- A memory access that stops faults with the lowest address out of range (R56). -/
theorem accessing_eq_fault_iff {base n : Nat} {after : State} {f : Fault} :
    accessing base n after = .fault f ↔ (n ≠ 0 ∧ base + n > 0x1000) ∧ f = .addressOutOfRange (max base 0x1000) := by
  unfold accessing
  split
  · next h =>
    rw [outOfRange_iff] at h
    simp only [raise, lowestBadAddress, Host.Outcome.fault.injEq, eq_comm (b := f)]
    exact ⟨fun e => ⟨by omega, e⟩, fun e => e.2⟩
  · next h =>
    have := (outOfRange_eq_false_iff base n).mp (Bool.not_eq_true _ ▸ h)
    simp; omega

theorem accessing_ne_refused {base n : Nat} {after : State} {r : Refusal} : accessing base n after ≠ .refused r := by
  unfold accessing
  split <;> simp [raise]

theorem plainResult_eq_next_iff {s t : State} {x : RegIx} {b : Byte} :
    plainResult s x b = .next t ↔ t = (s.setReg x b).advance 2 := by
  simp [plainResult, eq_comm]

theorem flaggedResult_eq_next_iff {s t : State} {x : RegIx} {b : Byte} {f : Bool} :
    flaggedResult s x b f = .next t ↔ t = (s.setRegThenFlag x b f).advance 2 := by
  simp [flaggedResult, eq_comm]

/-! ## Stored bytes -/

@[simp] theorem length_decimalDigits (b : Byte) : (decimalDigits b).length = 3 := rfl

@[simp] theorem length_regBlock (s : State) (x : RegIx) : (s.regBlock x).length = x.val + 1 := by
  simp [State.regBlock]

theorem getElem_regBlock (s : State) (x r : RegIx) (h : r.val < (s.regBlock x).length) : (s.regBlock x)[r.val] = s.reg r := by
  simp [State.regBlock, State.reg]

/-- A block of bytes stored in range is read back (R55). -/
theorem State.readByte_writeBytes_inside (s : State) {a : Nat} {bs : List Byte} (h : s.mem.wf) (ha : a + bs.length ≤ 0x1000)
    (k : Nat) (hk : k < bs.length) : (s.writeBytes a bs).readByte (a + k) = bs[k] :=
  Memory.read_writeBytes_inside h ha k hk

/-- A stored block changes no byte outside its range (R55). -/
theorem State.readByte_writeBytes_outside (s : State) {a a' : Nat} {bs : List Byte} (h : ¬ (a ≤ a' ∧ a' < a + bs.length)) :
    (s.writeBytes a bs).readByte a' = s.readByte a' :=
  Memory.read_writeBytes_outside h

/-! ## Operand values as numbers -/

theorem toNat_addrOperand {addr : Nat} (h : addr < 0x1000) : (addrOperand addr).toNat = addr := by
  simp [addrOperand]; omega

theorem toNat_regWide (s : State) (x : RegIx) : (s.regWide x).toNat = (s.reg x).toNat := by
  have := (s.reg x).isLt
  simp [State.regWide]; omega

theorem val_keyOperand (s : State) (x : RegIx) : (s.keyOperand x).val = (s.reg x).toNat % 16 := by
  simp [State.keyOperand, Fin.ofNat, Nat.and_two_pow_sub_one_eq_mod _ 4]

theorem toNat_glyphAddress (b : Byte) : (glyphAddress b).toNat = b.toNat % 16 * 5 := by
  have : (b &&& 0xF).toNat = b.toNat % 16 := by simp [Nat.and_two_pow_sub_one_eq_mod _ 4]
  simp only [glyphAddress, BitVec.toNat_mul, BitVec.toNat_setWidth, this]
  simp; omega

theorem toNat_flagByte (f : Bool) : (flagByte f).toNat = if f = true then 1 else 0 := by
  cases f <;> rfl

end Sys2Proof.Machine
end

