-- ==== Sys2Proof/Laws/HostInterface.lean ====
section
/-!
SUPPORT. What the host's operations and the environment's supply of draws leave in the state (spec/47_step_cycle.md R196, R197,
R200, spec/42_index_jump_random.md R143), what a move can do, and what a run keeps.
-/

namespace Sys2Proof.Machine

/-- The bytes after a `Load`: the image from 0x200, the font below 0x050, all others as before (R197). -/
theorem State.readByte_load_outside (s : State) {image : List Byte} {a : Nat} (h : ¬ (0x200 ≤ a ∧ a < 0x200 + image.length)) :
    (s.load image).readByte a = if a < 80 then Memory.unlisted a else s.readByte a := by
  rw [State.readByte, State.load, Memory.read_writeBytes_outside h, Memory.read_installFont]; rfl

theorem State.readByte_load_inside (s : State) {image : List Byte} (hm : s.mem.wf) (hl : image.length ≤ maxImage) (j : Nat)
    (hj : j < image.length) : (s.load image).readByte (0x200 + j) = image[j] :=
  Memory.read_writeBytes_inside (Memory.wf_installFont hm) (by simp only [maxImage] at hl; omega) j hj

theorem State.wf_load (s : State) {image : List Byte} (hm : s.mem.wf) (hl : image.length ≤ maxImage) :
    (s.load image).mem.wf :=
  Memory.wf_writeBytes (Memory.wf_installFont hm) (by simp only [maxImage] at hl; omega)

theorem State.keyDown_setKeyState (s : State) (k n : KeyNum) (pressed : Bool) :
    (s.setKeyState k pressed).keyDown n = if n = k then pressed else s.keyDown n := by
  by_cases h : n = k
  · subst h; simp [State.setKeyState, State.keyDown]
  · have : k.val ≠ n.val := fun e => h (Fin.ext e.symm)
    simp [State.setKeyState, State.keyDown, h, this]

/-! ### `State.setKeyState` -/

section
variable (s : State) (k : KeyNum) (pressed : Bool)

@[simp] theorem State.setKeyState_v : (s.setKeyState k pressed).v = s.v := rfl
@[simp] theorem State.setKeyState_i : (s.setKeyState k pressed).i = s.i := rfl
@[simp] theorem State.setKeyState_pc : (s.setKeyState k pressed).pc = s.pc := rfl
@[simp] theorem State.setKeyState_stack : (s.setKeyState k pressed).stack = s.stack := rfl
@[simp] theorem State.setKeyState_sp : (s.setKeyState k pressed).sp = s.sp := rfl
@[simp] theorem State.setKeyState_dt : (s.setKeyState k pressed).dt = s.dt := rfl
@[simp] theorem State.setKeyState_st : (s.setKeyState k pressed).st = s.st := rfl
@[simp] theorem State.setKeyState_cyc : (s.setKeyState k pressed).cyc = s.cyc := rfl
@[simp] theorem State.setKeyState_tone : (s.setKeyState k pressed).tone = s.tone := rfl
@[simp] theorem State.setKeyState_disp : (s.setKeyState k pressed).disp = s.disp := rfl
@[simp] theorem State.setKeyState_keys : (s.setKeyState k pressed).keys = s.keys.set k pressed := rfl
@[simp] theorem State.setKeyState_lrk : (s.setKeyState k pressed).lrk = if s.keyDown k = true ∧ pressed = false then some k else s.lrk := rfl
@[simp] theorem State.setKeyState_mem : (s.setKeyState k pressed).mem = s.mem := rfl
@[simp] theorem State.setKeyState_events : (s.setKeyState k pressed).events = s.events := rfl
@[simp] theorem State.setKeyState_drawQueue : (s.setKeyState k pressed).drawQueue = s.drawQueue := rfl
@[simp] theorem State.setKeyState_drawCount : (s.setKeyState k pressed).drawCount = s.drawCount := rfl
@[simp] theorem State.readByte_setKeyState (a : Nat) : (s.setKeyState k pressed).readByte a = s.readByte a := rfl

end

/-! ### `State.load` -/

section
variable (s : State) (image : List Byte)

@[simp] theorem State.load_v : (s.load image).v = s.v := rfl
@[simp] theorem State.load_i : (s.load image).i = s.i := rfl
@[simp] theorem State.load_pc : (s.load image).pc = s.pc := rfl
@[simp] theorem State.load_stack : (s.load image).stack = s.stack := rfl
@[simp] theorem State.load_sp : (s.load image).sp = s.sp := rfl
@[simp] theorem State.load_dt : (s.load image).dt = s.dt := rfl
@[simp] theorem State.load_st : (s.load image).st = s.st := rfl
@[simp] theorem State.load_cyc : (s.load image).cyc = s.cyc := rfl
@[simp] theorem State.load_tone : (s.load image).tone = s.tone := rfl
@[simp] theorem State.load_disp : (s.load image).disp = s.disp := rfl
@[simp] theorem State.load_keys : (s.load image).keys = s.keys := rfl
@[simp] theorem State.load_lrk : (s.load image).lrk = s.lrk := rfl
@[simp] theorem State.load_mem : (s.load image).mem = s.mem.installFont.writeBytes 0x200 image := rfl
@[simp] theorem State.load_events : (s.load image).events = s.events := rfl
@[simp] theorem State.load_drawQueue : (s.load image).drawQueue = s.drawQueue := rfl
@[simp] theorem State.load_drawCount : (s.load image).drawCount = s.drawCount := rfl

end

/-! ### `State.reconstruct` -/

section
variable (s : State)

@[simp] theorem State.reconstruct_v : (s.reconstruct).v = Vector.replicate 16 0 := rfl
@[simp] theorem State.reconstruct_i : (s.reconstruct).i = 0 := rfl
@[simp] theorem State.reconstruct_pc : (s.reconstruct).pc = 0x200 := rfl
@[simp] theorem State.reconstruct_stack : (s.reconstruct).stack = Vector.replicate 16 0 := rfl
@[simp] theorem State.reconstruct_sp : (s.reconstruct).sp = 0 := rfl
@[simp] theorem State.reconstruct_dt : (s.reconstruct).dt = 0 := rfl
@[simp] theorem State.reconstruct_st : (s.reconstruct).st = 0 := rfl
@[simp] theorem State.reconstruct_cyc : (s.reconstruct).cyc = 0 := rfl
@[simp] theorem State.reconstruct_tone : (s.reconstruct).tone = false := rfl
@[simp] theorem State.reconstruct_disp : (s.reconstruct).disp = Vector.replicate 32 (Vector.replicate 64 false) := rfl
@[simp] theorem State.reconstruct_keys : (s.reconstruct).keys = Vector.replicate 16 false := rfl
@[simp] theorem State.reconstruct_lrk : (s.reconstruct).lrk = none := rfl
@[simp] theorem State.reconstruct_mem : (s.reconstruct).mem = [] := rfl
@[simp] theorem State.reconstruct_events : (s.reconstruct).events = [] := rfl
@[simp] theorem State.reconstruct_drawQueue : (s.reconstruct).drawQueue = s.drawQueue := rfl
@[simp] theorem State.reconstruct_drawCount : (s.reconstruct).drawCount = s.drawCount := rfl

end

/-! ### `State.supplyDraws` -/

section
variable (s : State) (bytes : List Byte)

@[simp] theorem State.supplyDraws_v : (s.supplyDraws bytes).v = s.v := rfl
@[simp] theorem State.supplyDraws_i : (s.supplyDraws bytes).i = s.i := rfl
@[simp] theorem State.supplyDraws_pc : (s.supplyDraws bytes).pc = s.pc := rfl
@[simp] theorem State.supplyDraws_stack : (s.supplyDraws bytes).stack = s.stack := rfl
@[simp] theorem State.supplyDraws_sp : (s.supplyDraws bytes).sp = s.sp := rfl
@[simp] theorem State.supplyDraws_dt : (s.supplyDraws bytes).dt = s.dt := rfl
@[simp] theorem State.supplyDraws_st : (s.supplyDraws bytes).st = s.st := rfl
@[simp] theorem State.supplyDraws_cyc : (s.supplyDraws bytes).cyc = s.cyc := rfl
@[simp] theorem State.supplyDraws_tone : (s.supplyDraws bytes).tone = s.tone := rfl
@[simp] theorem State.supplyDraws_disp : (s.supplyDraws bytes).disp = s.disp := rfl
@[simp] theorem State.supplyDraws_keys : (s.supplyDraws bytes).keys = s.keys := rfl
@[simp] theorem State.supplyDraws_lrk : (s.supplyDraws bytes).lrk = s.lrk := rfl
@[simp] theorem State.supplyDraws_mem : (s.supplyDraws bytes).mem = s.mem := rfl
@[simp] theorem State.supplyDraws_events : (s.supplyDraws bytes).events = s.events := rfl
@[simp] theorem State.supplyDraws_drawQueue : (s.supplyDraws bytes).drawQueue = s.drawQueue ++ bytes := rfl
@[simp] theorem State.supplyDraws_drawCount : (s.supplyDraws bytes).drawCount = s.drawCount := rfl
@[simp] theorem State.readByte_supplyDraws (a : Nat) : (s.supplyDraws bytes).readByte a = s.readByte a := rfl

end

/-! ### Moves and runs -/

/-- What a move that goes on can do, said once (R195 to R200, R243). -/
theorem Session.move_eq_next {c : Config} {h h' : Session} {m : HostMove} (moved : h.move c m = .next h') :
    (m = .reset ∧ h' = h.reset) ∨
    (∃ image, m = .load (some image) ∧ h.phase = .constructed ∧ image.length ≤ maxImage ∧
      h' = { phase := .loaded, machine := h.machine.load image }) ∨
    (∃ t, m = .step ∧ stepWith c h.machine = .next t ∧ h' = { phase := .running, machine := t }) ∨
    (∃ (k : KeyNum) (pressed : Bool), m = .setKeyState k.val pressed ∧ h' = { h with machine := h.machine.setKeyState k pressed }) ∨
    (m = .display ∧ h' = h) ∨
    (∃ bytes, m = .supplyDraws bytes ∧ h' = { h with machine := h.machine.supplyDraws bytes }) := by
  cases m with
  | reset => cases moved; exact .inl ⟨rfl, rfl⟩
  | load source =>
    simp only [Session.move, Session.load] at moved
    split at moved
    · next image phase =>
      split at moved <;> cases moved
      exact .inr (.inl ⟨image, rfl, phase, ‹_›, rfl⟩)
    all_goals cases moved
  | step =>
    simp only [Session.move, Session.step] at moved
    split at moved <;> cases moved
    exact .inr (.inr (.inl ⟨_, rfl, ‹_›, rfl⟩))
  | setKeyState k pressed =>
    simp only [Session.move, Session.setKeyState] at moved
    split at moved <;> cases moved
    next hk => exact .inr (.inr (.inr (.inl ⟨⟨k, hk⟩, pressed, rfl, rfl⟩)))
  | display => cases moved; exact .inr (.inr (.inr (.inr (.inl ⟨rfl, rfl⟩))))
  | supplyDraws bytes => cases moved; exact .inr (.inr (.inr (.inr (.inr ⟨bytes, rfl, rfl⟩))))

/-- What every move keeps, every run keeps (R202). -/
theorem Session.run_keeps {c : Config} {P : Session → Prop}
    (moveKeeps : ∀ (h h' : Session) (m : HostMove), P h → h.move c m = .next h' → P h') :
    ∀ (moves : List HostMove) (h h' : Session), P h → Session.run c h moves = .next h' → P h'
  | [], _, _, holds, ran => by cases ran; exact holds
  | m :: ms, h, h', holds, ran => by
    rw [Session.run] at ran
    split at ran
    · next h₁ moved => exact Session.run_keeps moveKeeps ms h₁ h' (moveKeeps h h₁ m holds moved) ran
    all_goals cases ran

end Sys2Proof.Machine
end

