-- ==== Sys2Proof/Laws/PerInstr.lean ====
section
/-!
SUPPORT. Statements made per instruction: the word of an instruction matches the instruction's row of the opcode map
(spec/30_encoding.md R75, R83).
-/

namespace Sys2Proof.Laws.EncodingMatchesItsRow

/-- The encoded word has the row's bits under the row's mask. -/
def Statement (i : Instr) : Prop := i.pattern.matchesWord (encode i) = true

/-! ### The fields stay clear of the fixed bits -/

theorem or_and_mask (a b m : Word) : (a ||| b) &&& m = (a &&& m) ||| (b &&& m) := by
  ext i hi; simp [Bool.and_or_distrib_right]

theorem placeX_mask (x : RegIx) : placeX x &&& 0xF0FF = 0 ∧ placeX x &&& 0xF00F = 0 ∧ placeX x &&& 0xF000 = 0 := by
  revert x; decide

theorem placeY_mask (y : RegIx) : placeY y &&& 0xF00F = 0 ∧ placeY y &&& 0xF000 = 0 := by
  revert y; decide

theorem placeKk_mask (kk : Byte) : placeKk kk &&& 0xF000 = 0 := by
  ext i hi
  by_cases h : i < 12
  · interval_cases i <;> simp
  · simp [placeKk, BitVec.getLsbD_of_ge kk i (by omega)]

theorem address_mask (a : BitVec 12) : a.setWidth 16 &&& (0xF000 : Word) = 0 := by
  ext i hi
  by_cases h : i < 12
  · interval_cases i <;> simp
  · simp [BitVec.getLsbD_of_ge a i (by omega)]

theorem rowCount_mask (n : BitVec 4) : n.setWidth 16 &&& (0xF000 : Word) = 0 := by
  ext i hi
  by_cases h : i < 12
  · interval_cases i <;> simp
  · simp [BitVec.getLsbD_of_ge n i (by omega)]

/-! ### The formats of R72 -/

theorem encodeA_mask {base : Word} (hb : base &&& 0xF000 = base) (addr : Nat) : encodeA base addr &&& 0xF000 = base := by
  rw [encodeA, or_and_mask, hb, address_mask]; simp

theorem encodeXK_mask {base : Word} (hb : base &&& 0xF000 = base) (x : RegIx) (kk : Byte) :
    encodeXK base x kk &&& 0xF000 = base := by
  rw [encodeXK, or_and_mask, or_and_mask, hb, (placeX_mask x).2.2, placeKk_mask]; simp

theorem encodeXY_mask {base : Word} (hb : base &&& 0xF00F = base) (x y : RegIx) : encodeXY base x y &&& 0xF00F = base := by
  rw [encodeXY, or_and_mask, or_and_mask, hb, (placeX_mask x).2.1, (placeY_mask y).1]; simp

theorem encodeX_mask {base : Word} (hb : base &&& 0xF0FF = base) (x : RegIx) : encodeX base x &&& 0xF0FF = base := by
  rw [encodeX, or_and_mask, hb, (placeX_mask x).1]; simp

/-! ### The instructions -/

theorem cls : Statement .cls := by unfold Statement; decide

theorem ret : Statement .ret := by unfold Statement; decide

theorem jpAddr (addr : Nat) : Statement (.jpAddr addr) :=
  decide_eq_true (encodeA_mask (by decide) addr)

theorem callAddr (addr : Nat) : Statement (.callAddr addr) :=
  decide_eq_true (encodeA_mask (by decide) addr)

theorem seVxKk (x : RegIx) (kk : Byte) : Statement (.seVxKk x kk) :=
  decide_eq_true (encodeXK_mask (by decide) x kk)

theorem sneVxKk (x : RegIx) (kk : Byte) : Statement (.sneVxKk x kk) :=
  decide_eq_true (encodeXK_mask (by decide) x kk)

theorem seVxVy (x y : RegIx) : Statement (.seVxVy x y) :=
  decide_eq_true (encodeXY_mask (by decide) x y)

theorem ldVxKk (x : RegIx) (kk : Byte) : Statement (.ldVxKk x kk) :=
  decide_eq_true (encodeXK_mask (by decide) x kk)

theorem addVxKk (x : RegIx) (kk : Byte) : Statement (.addVxKk x kk) :=
  decide_eq_true (encodeXK_mask (by decide) x kk)

theorem ldVxVy (x y : RegIx) : Statement (.ldVxVy x y) :=
  decide_eq_true (encodeXY_mask (by decide) x y)

theorem orVxVy (x y : RegIx) : Statement (.orVxVy x y) :=
  decide_eq_true (encodeXY_mask (by decide) x y)

theorem andVxVy (x y : RegIx) : Statement (.andVxVy x y) :=
  decide_eq_true (encodeXY_mask (by decide) x y)

theorem xorVxVy (x y : RegIx) : Statement (.xorVxVy x y) :=
  decide_eq_true (encodeXY_mask (by decide) x y)

theorem addVxVy (x y : RegIx) : Statement (.addVxVy x y) :=
  decide_eq_true (encodeXY_mask (by decide) x y)

theorem subVxVy (x y : RegIx) : Statement (.subVxVy x y) :=
  decide_eq_true (encodeXY_mask (by decide) x y)

theorem shrVx (x y : RegIx) : Statement (.shrVx x y) :=
  decide_eq_true (encodeXY_mask (by decide) x y)

theorem subnVxVy (x y : RegIx) : Statement (.subnVxVy x y) :=
  decide_eq_true (encodeXY_mask (by decide) x y)

theorem shlVx (x y : RegIx) : Statement (.shlVx x y) :=
  decide_eq_true (encodeXY_mask (by decide) x y)

theorem sneVxVy (x y : RegIx) : Statement (.sneVxVy x y) :=
  decide_eq_true (encodeXY_mask (by decide) x y)

theorem ldIAddr (addr : Nat) : Statement (.ldIAddr addr) :=
  decide_eq_true (encodeA_mask (by decide) addr)

theorem jpV0Addr (addr : Nat) : Statement (.jpV0Addr addr) :=
  decide_eq_true (encodeA_mask (by decide) addr)

theorem rndVxKk (x : RegIx) (kk : Byte) : Statement (.rndVxKk x kk) :=
  decide_eq_true (encodeXK_mask (by decide) x kk)

theorem drwVxVyN (x y : RegIx) (n : Nat) : Statement (.drwVxVyN x y n) := by
  refine decide_eq_true ?_
  show (encodeXY 0xD000 x y ||| (BitVec.ofNat 4 n).setWidth 16) &&& 0xF000 = 0xD000
  rw [encodeXY, or_and_mask, or_and_mask, or_and_mask, (placeX_mask x).2.2, (placeY_mask y).2, rowCount_mask]
  decide

theorem skpVx (x : RegIx) : Statement (.skpVx x) :=
  decide_eq_true (encodeX_mask (by decide) x)

theorem sknpVx (x : RegIx) : Statement (.sknpVx x) :=
  decide_eq_true (encodeX_mask (by decide) x)

theorem ldVxDt (x : RegIx) : Statement (.ldVxDt x) :=
  decide_eq_true (encodeX_mask (by decide) x)

theorem ldVxK (x : RegIx) : Statement (.ldVxK x) :=
  decide_eq_true (encodeX_mask (by decide) x)

theorem ldDtVx (x : RegIx) : Statement (.ldDtVx x) :=
  decide_eq_true (encodeX_mask (by decide) x)

theorem ldStVx (x : RegIx) : Statement (.ldStVx x) :=
  decide_eq_true (encodeX_mask (by decide) x)

theorem addIVx (x : RegIx) : Statement (.addIVx x) :=
  decide_eq_true (encodeX_mask (by decide) x)

theorem ldFVx (x : RegIx) : Statement (.ldFVx x) :=
  decide_eq_true (encodeX_mask (by decide) x)

theorem ldBVx (x : RegIx) : Statement (.ldBVx x) :=
  decide_eq_true (encodeX_mask (by decide) x)

theorem ldMemIVx (x : RegIx) : Statement (.ldMemIVx x) :=
  decide_eq_true (encodeX_mask (by decide) x)

theorem ldVxMemI (x : RegIx) : Statement (.ldVxMemI x) :=
  decide_eq_true (encodeX_mask (by decide) x)

end Sys2Proof.Laws.EncodingMatchesItsRow
end

