-- ==== Sys2Proof/Laws/Timer.lean ====
section
/-!
SUPPORT. The timer chain: the count of a cycle in R223's words, and what a tick leaves in each field.
-/

namespace Sys2Proof.Machine

section
variable (s : State)

@[simp] theorem soundOnCheck_dt : (soundOnCheck s).dt = s.dt := by unfold soundOnCheck; split <;> rfl
@[simp] theorem soundOnCheck_st : (soundOnCheck s).st = s.st := by unfold soundOnCheck; split <;> rfl
@[simp] theorem soundOffCheck_dt : (soundOffCheck s).dt = s.dt := by unfold soundOffCheck; split <;> rfl
@[simp] theorem soundOffCheck_st : (soundOffCheck s).st = s.st := by unfold soundOffCheck; split <;> rfl

@[simp] theorem timerTick_dt : (timerTick s).dt = countDown s.dt := by simp [timerTick, countTimers]
@[simp] theorem timerTick_st : (timerTick s).st = countDown s.st := by simp [timerTick, countTimers]

/-- A tick as one record update (R224). -/
theorem timerTick_eq : timerTick s =
    { s with
      dt := countDown s.dt
      st := countDown s.st
      tone := (timerTick s).tone
      events := (timerTick s).events } := by
  cases s
  simp only [timerTick, soundOnCheck, soundOffCheck, countTimers]
  repeat' split
  all_goals rfl

/-- The `cyc` of a state does not reach into its tick. -/
theorem timerTick_withCyc (n : Nat) : timerTick { s with cyc := n } = { timerTick s with cyc := n } := by
  cases s
  simp only [timerTick, soundOnCheck, soundOffCheck, countTimers]
  repeat' split
  all_goals simp_all

end

/-- A countdown by 1 that stops at 0 (R224). -/
theorem toNat_countDown (t : Byte) : (countDown t).toNat = t.toNat - 1 := by
  unfold countDown
  split
  · next h => simp [h]
  · next h =>
    have : t.toNat ≠ 0 := fun e => h (BitVec.eq_of_toNat_eq (by simpa using e))
    have := t.isLt
    simp only [BitVec.toNat_sub]
    simp; omega

/-- The count of a cycle in the words of R223. -/
theorem countCycle_eq (N : Nat) (s : State) :
    countCycle N s = if s.cyc + 1 = N then timerTick { s with cyc := 0 } else { s with cyc := s.cyc + 1 } := by
  unfold countCycle
  split
  · next h =>
    rw [timerTick_withCyc s 0]
    conv_rhs => rw [timerTick_eq s]
    simp [h]
  · next h => simp [h]

section
variable (N : Nat) (s : State)

@[simp] theorem countCycle_v : (countCycle N s).v = s.v := rfl
@[simp] theorem countCycle_i : (countCycle N s).i = s.i := rfl
@[simp] theorem countCycle_pc : (countCycle N s).pc = s.pc := rfl
@[simp] theorem countCycle_stack : (countCycle N s).stack = s.stack := rfl
@[simp] theorem countCycle_sp : (countCycle N s).sp = s.sp := rfl
@[simp] theorem countCycle_disp : (countCycle N s).disp = s.disp := rfl
@[simp] theorem countCycle_keys : (countCycle N s).keys = s.keys := rfl
@[simp] theorem countCycle_lrk : (countCycle N s).lrk = s.lrk := rfl
@[simp] theorem countCycle_mem : (countCycle N s).mem = s.mem := rfl
@[simp] theorem countCycle_drawQueue : (countCycle N s).drawQueue = s.drawQueue := rfl
@[simp] theorem countCycle_drawCount : (countCycle N s).drawCount = s.drawCount := rfl

end

end Sys2Proof.Machine
end

