-- ==== Sys2Proof/Laws/Step.lean ====
section
/-!
SUPPORT. What a step can do, said once (spec/47_step_cycle.md R190): the inversion of a step that goes on, and the step of a state
whose word decodes.
-/

namespace Sys2Proof.Machine

/-- A fetch answers the word at `PC` exactly where both bytes lie in range and the guard does not object (R191, U1). -/
theorem fetch_eq_ok_iff {c : Config} {s : State} {w : Word} :
    fetch c s = .ok w ↔ s.pc.toNat ≤ 0xFFE ∧ fetchAliasesFont c s = false ∧ w = s.wordAtPc := by
  have range := outOfRange_eq_false_iff s.pc.toNat 2
  unfold fetch
  cases h : outOfRange s.pc.toNat 2
  · cases fetchAliasesFont c s
    · have : s.pc.toNat ≤ 0xFFE := by have := range.mp h; omega
      simp [this, eq_comm]
    · simp
  · have : ¬ s.pc.toNat ≤ 0xFFE := fun e => by simp [h] at range; omega
    simp [this]

/-- The execute and count stages go on exactly where the guard does not object and the handler goes on (R190, R223). -/
theorem execAndCount_eq_next_iff {c : Config} {i : Instr} {s t : State} :
    execAndCount c i s = .next t ↔
      storeAliasesFont c i s = false ∧ ∃ u, exec i s = .next u ∧ t = countCycle c.cyclesPerTick u := by
  unfold execAndCount
  cases storeAliasesFont c i s
  · cases exec i s <;> simp [eq_comm]
  · simp [raise]

/-- A step that goes on fetched in range, decoded, met no guard, ran the handler and counted the cycle. -/
theorem stepWith_eq_next {c : Config} {s t : State} (h : stepWith c s = .next t) :
    ∃ i u, s.pc.toNat ≤ 0xFFE ∧ fetchAliasesFont c s = false ∧ decode s.wordAtPc = .ok i ∧ storeAliasesFont c i s = false ∧
      exec i s = .next u ∧ t = countCycle c.cyclesPerTick u := by
  unfold stepWith at h
  split at h
  · cases h
  · next w fetched =>
    obtain ⟨inRange, noAlias, rfl⟩ := fetch_eq_ok_iff.mp fetched
    split at h
    · cases h
    · next i decoded =>
      obtain ⟨noStore, u, ran, counted⟩ := execAndCount_eq_next_iff.mp h
      exact ⟨i, u, inRange, noAlias, decoded, noStore, ran, counted⟩

/-- The step of a state whose word, fetched in range and with the guard off, decodes to `i`. -/
theorem stepWith_of_decode {c : Config} {s : State} {i : Instr} (hc : c.fontRegionGuard = false) (hpc : s.pc.toNat ≤ 0xFFE)
    (hd : decode s.wordAtPc = .ok i) :
    stepWith c s =
      match exec i s with
      | .next t => .next (countCycle c.cyclesPerTick t)
      | .fault f => .fault f
      | .refused r => .refused r := by
  have noStore : storeAliasesFont c i s = false := by unfold storeAliasesFont; split <;> simp [hc]
  have fetched : fetch c s = .ok s.wordAtPc := fetch_eq_ok_iff.mpr ⟨hpc, by simp [fetchAliasesFont, hc], rfl⟩
  unfold stepWith execAndCount
  rw [fetched]
  dsimp only
  rw [hd]
  dsimp only
  rw [noStore]
  rfl

/-- The word at `PC` is the high byte times 256 plus the low byte (R54). -/
theorem State.wordAtPc_eq (s : State) : s.wordAtPc =
    BitVec.ofNat 16 ((s.readByte s.pc.toNat).toNat * 256 + (s.readByte (s.pc.toNat + 1)).toNat) :=
  wordOfBytes_eq _ _

end Sys2Proof.Machine
end

