-- ==== Sys2Proof/Tests/Slice0.lean ====
section
/-!
SUPPORT. Tests. Expected results come from spec/95_test_vectors.md (the vector's label stands in each comment), from the examples of
the instruction rules, or from words written out bit by bit from the encodings of spec/opcode_table.json. The last part shows, for
each statement with hypotheses, a concrete case that meets them.
-/

open Sys2Proof Sys2Proof.Machine

namespace Sys2Proof.Tests

/-! ## Well-formedness: an ill-formed term for each check -/

theorem test_wf_refuses_long_jump_address : (Instr.jpAddr 0x1000).wellFormed = false := by decide
theorem test_wf_refuses_long_call_address : (Instr.callAddr 0x1000).wellFormed = false := by decide
theorem test_wf_refuses_long_index_address : (Instr.ldIAddr 0x1000).wellFormed = false := by decide
theorem test_wf_refuses_long_indexed_jump : (Instr.jpV0Addr 0x1000).wellFormed = false := by decide
theorem test_wf_refuses_sixteen_rows : (Instr.drwVxVyN 0 0 16).wellFormed = false := by decide
theorem test_wf_accepts_the_largest : (Instr.jpAddr 0xFFF).wellFormed = true ∧ (Instr.drwVxVyN 15 15 15).wellFormed = true := by
  decide

/-! ## Decoding: one word per constructor, its bits from the `encoding` column of spec/opcode_table.json -/

theorem test_decode_cls : decode 0b0000000011100000 = .ok .cls := by decide
theorem test_decode_ret : decode 0b0000000011101110 = .ok .ret := by decide
theorem test_decode_jp : decode 0b0001101010111100 = .ok (.jpAddr 0b101010111100) := by decide
theorem test_decode_call : decode 0b0010000111010010 = .ok (.callAddr 0b000111010010) := by decide
theorem test_decode_se_imm : decode 0b0011010111000011 = .ok (.seVxKk 5 0b11000011) := by decide
theorem test_decode_sne_imm : decode 0b0100101000010111 = .ok (.sneVxKk 10 0b00010111) := by decide
theorem test_decode_se_reg : decode 0b0101001101000000 = .ok (.seVxVy 3 4) := by decide
theorem test_decode_ld_imm : decode 0b0110111110000001 = .ok (.ldVxKk 15 0b10000001) := by decide
theorem test_decode_add_imm : decode 0b0111000101111110 = .ok (.addVxKk 1 0b01111110) := by decide
theorem test_decode_ld_reg : decode 0b1000000100100000 = .ok (.ldVxVy 1 2) := by decide
theorem test_decode_or : decode 0b1000000100100001 = .ok (.orVxVy 1 2) := by decide
theorem test_decode_and : decode 0b1000000100100010 = .ok (.andVxVy 1 2) := by decide
theorem test_decode_xor : decode 0b1000000100100011 = .ok (.xorVxVy 1 2) := by decide
theorem test_decode_add_reg : decode 0b1000001110100100 = .ok (.addVxVy 3 10) := by decide
theorem test_decode_sub : decode 0b1000101010110101 = .ok (.subVxVy 10 11) := by decide
theorem test_decode_shr : decode 0b1000000111110110 = .ok (.shrVx 1 15) := by decide
theorem test_decode_subn : decode 0b1000000100100111 = .ok (.subnVxVy 1 2) := by decide
theorem test_decode_shl : decode 0b1000111100011110 = .ok (.shlVx 15 1) := by decide
theorem test_decode_sne_reg : decode 0b1001001101000000 = .ok (.sneVxVy 3 4) := by decide
theorem test_decode_ld_i : decode 0b1010001100000001 = .ok (.ldIAddr 0b001100000001) := by decide
theorem test_decode_jp_v0 : decode 0b1011111100000001 = .ok (.jpV0Addr 0b111100000001) := by decide
theorem test_decode_rnd : decode 0b1100000100001111 = .ok (.rndVxKk 1 0b00001111) := by decide
theorem test_decode_drw : decode 0b1101000100100101 = .ok (.drwVxVyN 1 2 5) := by decide
theorem test_decode_skp : decode 0b1110000110011110 = .ok (.skpVx 1) := by decide
theorem test_decode_sknp : decode 0b1110000110100001 = .ok (.sknpVx 1) := by decide
theorem test_decode_ld_from_dt : decode 0b1111001000000111 = .ok (.ldVxDt 2) := by decide
theorem test_decode_ld_key : decode 0b1111000100001010 = .ok (.ldVxK 1) := by decide
theorem test_decode_ld_dt : decode 0b1111000100010101 = .ok (.ldDtVx 1) := by decide
theorem test_decode_ld_st : decode 0b1111000100011000 = .ok (.ldStVx 1) := by decide
theorem test_decode_add_i : decode 0b1111000100011110 = .ok (.addIVx 1) := by decide
theorem test_decode_ld_font : decode 0b1111000000101001 = .ok (.ldFVx 0) := by decide
theorem test_decode_bcd : decode 0b1111001000110011 = .ok (.ldBVx 2) := by decide
theorem test_decode_store : decode 0b1111000101010101 = .ok (.ldMemIVx 1) := by decide
theorem test_decode_load : decode 0b1111001001100101 = .ok (.ldVxMemI 2) := by decide

/-- The words decode to nothing. -/
def allUnknown (ws : List Word) : Bool := ws.all fun w => match decode w with | .ok _ => false | .error e => e == .unknownOpcode w

-- C-11, K-8, K-12
theorem test_decode_unknown_0_5_9 : allUnknown [0x00E1, 0x0000, 0x0123, 0x01E0, 0x00FE, 0x5341, 0x9341] = true := by decide
-- A-34, E-6, F-18
theorem test_decode_unknown_8_E_F :
    allUnknown [0x8128, 0x812F, 0xE19F, 0xE10E, 0xE1B1, 0xF100, 0xF108, 0xF11F, 0xF175, 0xF185] = true := by decide

theorem test_decode_bytes_high_byte_first : decodeBytes [0x2A, 0xBC, 0x77] = .ok (.callAddr 0xABC, [0x77]) := by decide
theorem test_decode_bytes_truncated : decodeBytes [0x2A] = .error (.truncated [0x2A]) := by decide
theorem test_decode_table_word : decodeTableWord 16 0xD125 = some (.drwVxVyN 1 2 5) := by decide
theorem test_encode_bytes : encodeBytes (.addVxVy 3 10) = [0x83, 0xA4] := by decide

/-! ## One step on a small state -/

/-- Parameters with `N` = `n + 1` and the guard off. -/
def cfg (n : Nat) : Config := ⟨n + 1, Nat.succ_pos n, false⟩

/-- The reset state with a word at 0x200 and some registers set. -/
def ready (w : Nat) (regs : List (RegIx × Byte)) : State :=
  regs.foldl (fun s r => s.setReg r.1 r.2) (State.reset.withFetchWord 16 w)

/-- A step with `N` = 100. -/
def run (s : State) : Result := stepWith (cfg 99) s

/-- A field of the next state. -/
def after {α : Type} (r : Result) (field : State → α) : Option α :=
  match r with
  | .next t => some (field t)
  | _ => none

/-- The fault of a step. -/
def faultOf (r : Result) : Option Fault :=
  match r with
  | .fault f => some f
  | _ => none

/-- The reset state with a word at 0x200, bytes elsewhere and `I`. -/
def readyAt (w : Nat) (i : Word) (bytes : List Byte) (regs : List (RegIx × Byte)) : State :=
  ({ ready w regs with i := i }).writeBytes i.toNat bytes

-- C-1
theorem test_cls : after (run { ready 0x00E0 [] with disp := Display.clear.toggle 3 5 }) (fun t => (t.disp.cell 3 5, t.pc)) =
    some (false, 0x202) := by decide
-- C-2
theorem test_ret : after (run { ready 0x00EE [] with sp := 1, stack := State.reset.stack.set 0 0x204 })
    (fun t => (t.sp.val, t.pc)) = some (0, 0x206) := by decide
-- C-3
theorem test_ret_empty : faultOf (run (ready 0x00EE [])) = some .stackUnderflow := by decide
-- C-4
theorem test_jp : after (run (ready 0x1234 [])) (·.pc) = some 0x234 := by decide
-- C-8
theorem test_call_last_slot : after (run { ready 0x2200 [] with sp := 15 }) (fun t => (t.slot 15, t.sp.val, t.pc)) =
    some (0x200, 16, 0x200) := by decide
-- C-9
theorem test_call_full : faultOf (run { ready 0x2200 [] with sp := 16 }) = some .stackOverflow := by decide
-- K-1, K-2
theorem test_se_imm : after (run (ready 0x3100 [])) (·.pc) = some 0x204 ∧ after (run (ready 0x3100 [(1, 1)])) (·.pc) = some 0x202 := by
  decide
-- K-3, K-4
theorem test_sne_imm : after (run (ready 0x4207 [(2, 7)])) (·.pc) = some 0x202 ∧
    after (run (ready 0x4208 [(2, 7)])) (·.pc) = some 0x204 := by decide
-- K-5, K-6
theorem test_se_reg : after (run (ready 0x5340 [(3, 9), (4, 9)])) (·.pc) = some 0x204 ∧
    after (run (ready 0x5340 [(3, 9), (4, 8)])) (·.pc) = some 0x202 := by decide
-- K-9, K-11
theorem test_sne_reg : after (run (ready 0x9340 [(3, 1), (4, 2)])) (·.pc) = some 0x204 ∧
    after (run (ready 0x9330 [(3, 1)])) (·.pc) = some 0x202 := by decide
-- A-1
theorem test_ld_imm : after (run (ready 0x6A3F [])) (·.reg 10) = some 0x3F := by decide
-- A-2
theorem test_add_imm_wraps_without_flag : after (run (ready 0x7001 [(0, 255), (15, 1)])) (fun t => (t.reg 0, t.reg 15)) =
    some (0, 1) := by decide
-- A-4
theorem test_ld_reg : after (run (ready 0x8120 [(2, 0x77)])) (·.reg 1) = some 0x77 := by decide
-- A-5
theorem test_or : after (run (ready 0x8011 [(0, 0x0F), (1, 0xF0), (15, 1)])) (fun t => (t.reg 0, t.reg 15)) = some (0xFF, 1) := by
  decide
-- A-6
theorem test_and : after (run (ready 0x8122 [(1, 0x3C), (2, 0x0F)])) (·.reg 1) = some 0x0C := by decide
-- A-7
theorem test_xor : after (run (ready 0x8123 [(1, 0xFF), (2, 0x0F)])) (·.reg 1) = some 0xF0 := by decide
-- A-15
theorem test_add_flag_as_operand : after (run (ready 0x80F4 [(0, 250), (15, 10)])) (fun t => (t.reg 0, t.reg 15)) = some (4, 1) := by
  decide
-- A-14
theorem test_add_into_flag : after (run (ready 0x8F14 [(15, 20), (1, 10)])) (·.reg 15) = some 0 := by decide
-- A-18
theorem test_sub_borrows : after (run (ready 0x8015 [(0, 3), (1, 5)])) (fun t => (t.reg 0, t.reg 15)) = some (254, 0) := by decide
-- A-19
theorem test_sub_equal : after (run (ready 0x8015 [(0, 7), (1, 7)])) (fun t => (t.reg 0, t.reg 15)) = some (0, 1) := by decide
-- A-23
theorem test_shr_ignores_y : after (run (ready 0x8016 [(0, 5), (1, 0xFF)])) (fun t => (t.reg 0, t.reg 15, t.reg 1)) =
    some (2, 1, 0xFF) := by decide
-- A-27
theorem test_subn : after (run (ready 0x8017 [(0, 3), (1, 5)])) (fun t => (t.reg 0, t.reg 15)) = some (2, 1) := by decide
-- A-28
theorem test_subn_borrows : after (run (ready 0x8017 [(0, 5), (1, 3)])) (fun t => (t.reg 0, t.reg 15)) = some (254, 0) := by decide
-- A-30
theorem test_shl_ignores_y : after (run (ready 0x801E [(0, 0x81), (1, 0xFF)])) (fun t => (t.reg 0, t.reg 15, t.reg 1)) =
    some (2, 1, 0xFF) := by decide
-- I-1
theorem test_ld_i : after (run { ready 0xA300 [] with i := 0xFFFF }) (·.i) = some 0x0300 := by decide
-- I-3, I-4
theorem test_jp_v0 : after (run (ready 0xB300 [(3, 9)])) (·.pc) = some 0x300 ∧
    after (run (ready 0xBFFF [(0, 0xFF)])) (·.pc) = some 0x10FE := by decide
-- I-5
theorem test_rnd : after (run { ready 0xC10F [] with drawQueue := [0xA7] }) (·.reg 1) = some 0x07 := by decide
-- D-3
theorem test_drw_wraps : after (run (readyAt 0xD122 0x300 [0xC0, 0x80] [(1, 63), (2, 31)]))
    (fun t => (t.disp.cell 31 63, t.disp.cell 31 0, t.disp.cell 0 63, t.disp.cell 0 0, t.reg 15)) =
    some (true, true, true, false, 0) := by decide
-- D-12
theorem test_drw_collides : after (run { readyAt 0xD011 0x300 [0xC0] [] with disp := Display.clear.toggle 0 1 })
    (fun t => (t.disp.cell 0 0, t.disp.cell 0 1, t.reg 15)) = some (true, false, 1) := by decide
-- E-1, E-5
theorem test_skp : after (run { ready 0xE19E [(1, 7)] with keys := State.reset.keys.set 7 true }) (·.pc) = some 0x204 ∧
    after (run { ready 0xE19E [(1, 0x1A)] with keys := State.reset.keys.set 10 true }) (·.pc) = some 0x204 := by decide
-- E-3, E-4
theorem test_sknp : after (run (ready 0xE1A1 [(1, 7)])) (·.pc) = some 0x204 ∧
    after (run { ready 0xE1A1 [(1, 7)] with keys := State.reset.keys.set 7 true }) (·.pc) = some 0x202 := by decide
-- F-1
theorem test_ld_from_dt : after (run { ready 0xF207 [] with dt := 0x3C }) (·.reg 2) = some 0x3C := by decide
-- F-2
theorem test_ld_key_blocks : after (run (ready 0xF10A [(1, 9)])) (fun t => (t.pc, t.reg 1, t.cyc)) = some (0x200, 9, 1) := by decide
-- F-3
theorem test_ld_key_completes : after (run { ready 0xF10A [] with lrk := some 7 }) (fun t => (t.pc, t.reg 1, t.lrk)) =
    some (0x202, 7, none) := by decide
-- F-4
theorem test_ld_dt : after (run (ready 0xF115 [(1, 60)])) (·.dt) = some 60 := by decide
-- F-5
theorem test_ld_st : after (run (ready 0xF118 [(1, 2)])) (fun t => (t.st, t.tone, t.events)) = some (2, false, []) := by decide
-- F-7
theorem test_add_i_wraps_without_flag : after (run { ready 0xF01E [(0, 1), (15, 7)] with i := 0xFFFF })
    (fun t => (t.i, t.reg 15)) = some (0, 7) := by decide
-- F-8
theorem test_ld_font : after (run (ready 0xF029 [(0, 0x1A)])) (·.i) = some 50 := by decide
-- F-10
theorem test_bcd_at_the_top : after (run { ready 0xF033 [(0, 255)] with i := 0xFFD })
    (fun t => (t.readByte 0xFFD, t.readByte 0xFFE, t.readByte 0xFFF)) = some (2, 5, 5) := by decide
-- F-11
theorem test_bcd_out_of_range : faultOf (run { ready 0xF033 [(0, 255)] with i := 0xFFE }) = some (.addressOutOfRange 0x1000) := by
  decide
-- F-13
theorem test_store_at_the_top : after (run { ready 0xF155 [(0, 1), (1, 2)] with i := 0xFFE })
    (fun t => (t.readByte 0xFFE, t.readByte 0xFFF, t.i)) = some (1, 2, 0xFFE) := by decide
-- F-14
theorem test_store_out_of_range : faultOf (run { ready 0xF155 [(0, 1), (1, 2)] with i := 0xFFF }) =
    some (.addressOutOfRange 0x1000) := by decide
-- R178, example
theorem test_load : after (run (readyAt 0xF265 0x300 [1, 5, 7, 9] [(3, 4)]))
    (fun t => (t.reg 0, t.reg 1, t.reg 2, t.reg 3, t.i)) = some (1, 5, 7, 4, 0x300) := by decide
-- F-16
theorem test_load_out_of_range : faultOf (run { ready 0xF065 [] with i := 0x1000 }) = some (.addressOutOfRange 0x1000) := by decide

/-! ## The step, the timers and the host -/

-- T-2
theorem test_fetch_out_of_range : faultOf (run { State.reset with pc := 0xFFF }) = some (.addressOutOfRange 0x1000) := by decide
-- T-4
theorem test_odd_pc : after (run (({ State.reset with pc := 0x201 }).withFetchWord 16 0x6007)) (fun t => (t.reg 0, t.pc)) =
    some (7, 0x203) := by decide
-- T-5, first step
theorem test_tick_every_step : after (stepWith (cfg 0) { ready 0x1200 [] with dt := 2 }) (fun t => (t.dt, t.cyc)) = some (1, 0) := by
  decide
-- T-6, third step: the timer is written 1 in a step that ends with a tick
theorem test_tone_of_one_tick : after (stepWith (cfg 2) { ready 0xF018 [(0, 1)] with cyc := 2 })
    (fun t => (t.events, t.st, t.tone)) = some ([.soundOn, .soundOff], 0, false) := by decide
-- P4, step 6: `V2` is read before the tick
theorem test_timer_read_before_tick : after (stepWith (cfg 1) { ready 0xF207 [] with cyc := 1, dt := 6, st := 7 })
    (fun t => (t.reg 2, t.dt, t.st, t.tone, t.events)) = some (6, 5, 6, true, [.soundOn]) := by decide
-- T-9
theorem test_unloaded_machine : faultOf (step State.reset) = some (.unknownOpcode 0x0000) := by decide
-- T-10, T-11
theorem test_set_key_state : (State.reset.setKeyState 3 false).lrk = none ∧
    ((((State.reset.setKeyState 3 true).setKeyState 4 true).setKeyState 3 false).setKeyState 4 false).lrk = some 4 := by decide
-- The word that withFetchWord places is the one the build's own step runs (C-4, C-11)
theorem test_with_fetch_word : after (step (State.reset.withFetchWord 16 0x1234)) (·.pc) = some 0x234 ∧
    faultOf (step (State.reset.withFetchWord 16 0x00E1)) = some (.unknownOpcode 0x00E1) := by decide
-- R143: a reset does not rewind the draws
theorem test_reset_keeps_the_draws : ({ State.reset with drawQueue := [0xA7], drawCount := 3 } : State).consumeDraw.reconstruct =
    State.constructed [] 4 := by decide
-- R64, P1: the first word of the image at 0x200
theorem test_load_image : (State.reset.load [0x60, 0x00, 0x61, 0x05]).wordAtPc = 0x6000 := by decide
-- U1: with the guard on, a store into the font region faults
theorem test_guard_faults : faultOf (stepWith { cfg 0 with fontRegionGuard := true } { ready 0xF055 [] with i := 0x1FF }) =
    some (.fontRegionAliased 0x1FF) := by decide

/-! ## Witnesses: a concrete case that meets the hypotheses of each statement that has some, clause by clause -/

theorem next_of_after {α : Type} {r : Result} {field : State → α} {a : α} (h : after r field = some a) :
    ∃ t, r = .next t ∧ field t = a := by
  cases r <;> simp_all [after]

theorem fault_of_faultOf {r : Result} {f : Fault} (h : faultOf r = some f) : r = .fault f := by
  cases r <;> simp_all [faultOf]

theorem witness_DecodeOfEncodeIsTheInstruction : (Instr.drwVxVyN 15 15 15).wellFormed = true := by decide

theorem witness_EncodeOfDecodedWordIsTheWord : decode 0x8FFE = .ok (.shlVx 15 15) := by decide

theorem witness_DecodeFollowsTheOpcodeMap : decode 0xFF65 = .ok (.ldVxMemI 15) ∧ decode 0xFF66 = .error (.unknownOpcode 0xFF66) ∧
    ⟨0x800E, 0xF00F⟩ ∈ opcodeMap ∧ (⟨0x800E, 0xF00F⟩ : Pattern).matchesWord 0x8FFE = true := by decide

/-- The last address an instruction can be fetched from, with the word `w` there. -/
def atTop (w : Nat) : State := ({ State.reset with pc := 0xFFE }).withFetchWord 16 w

theorem witness_StepRunsTheDecodedInstruction : (atTop 0x1234).pc.toNat ≤ 0xFFE ∧
    decode (BitVec.ofNat 16 (((atTop 0x1234).readByte (atTop 0x1234).pc.toNat).toNat * 256 +
      ((atTop 0x1234).readByte ((atTop 0x1234).pc.toNat + 1)).toNat)) = .ok (.jpAddr 0x234) := by decide

theorem witness_StepReportsTheFirstFailingCheck_range : ({ State.reset with pc := 0xFFF } : State).pc.toNat > 0xFFE := by decide

theorem witness_StepReportsTheFirstFailingCheck_decode : (atTop 0x0000).pc.toNat ≤ 0xFFE ∧
    decode (BitVec.ofNat 16 (((atTop 0x0000).readByte (atTop 0x0000).pc.toNat).toNat * 256 +
      ((atTop 0x0000).readByte ((atTop 0x0000).pc.toNat + 1)).toNat)) = .error (.unknownOpcode 0x0000) := by decide

theorem witness_StepReportsTheFirstFailingCheck_handler : (atTop 0x00EE).pc.toNat ≤ 0xFFE ∧
    decode (BitVec.ofNat 16 (((atTop 0x00EE).readByte (atTop 0x00EE).pc.toNat).toNat * 256 +
      ((atTop 0x00EE).readByte ((atTop 0x00EE).pc.toNat + 1)).toNat)) = .ok .ret ∧
    handlerFault .ret (atTop 0x00EE) = some .stackUnderflow := by decide

theorem witness_EverySuccessfulStepCountsOneCycle_tick :
    (∃ t, stepWith (cfg 99) { atTop 0x1234 with cyc := 99 } = .next t) ∧ 99 + 1 = (cfg 99).cyclesPerTick :=
  ⟨(next_of_after (field := (·.pc)) (a := 0x234) (by decide)).imp fun _ h => h.1, rfl⟩

theorem witness_EverySuccessfulStepCountsOneCycle_count :
    (∃ t, stepWith (cfg 99) { atTop 0x1234 with cyc := 98 } = .next t) ∧ 98 + 1 ≠ (cfg 99).cyclesPerTick :=
  ⟨(next_of_after (field := (·.pc)) (a := 0x234) (by decide)).imp fun _ h => h.1, by decide⟩

theorem witness_FaultedStepFaultsAgainAfterAnyKeyChange : stepWith (cfg 0) (ready 0x00EE []) = .fault .stackUnderflow :=
  fault_of_faultOf (by decide)

theorem witness_FontRegionGuardOnlyRemovesBehaviours :
    (∃ t, stepWith { cfg 0 with fontRegionGuard := true } { ready 0xF055 [] with i := 0x200 } = .next t) ∧
      (cfg 0).fontRegionGuard = false :=
  ⟨(next_of_after (field := (·.pc)) (a := 0x202) (by decide)).imp fun _ h => h.1, rfl⟩

theorem witness_ToneSignalsEachEdgeOnce : ({ State.reset with st := 1 } : State).tone = false ∧
    ({ State.reset with st := 1 } : State).st ≠ 0 ∧ 0 < 1 := by decide

theorem ready_mem_wf : (ready 0x1234 []).mem.wf := by decide

theorem witness_StepKeepsTheInvariant : ((ready 0x1234 []).Inv (cfg 0) ∧ ∃ t, stepWith (cfg 0) (ready 0x1234 []) = .next t) ∧
    (ready 0x1234 []).Inv Config.machine ∧ ∃ t, step (ready 0x1234 []) = .next t :=
  ⟨⟨⟨ready_mem_wf, by decide, rfl⟩, (next_of_after (field := (·.pc)) (a := 0x234) (by decide)).imp fun _ h => h.1⟩,
    ⟨ready_mem_wf, Config.machine.cyclesPerTick_pos, rfl⟩,
    (next_of_after (field := (·.pc)) (a := 0x234) (by decide)).imp fun _ h => h.1⟩

theorem witness_EveryHostRunKeepsTheInvariant : (Session.constructed [0xA7] 3).machine.Inv (cfg 0) ∧
    (∃ h', (Session.constructed [0xA7] 3).move (cfg 0) (.load (some [0x12, 0x00])) = .next h') ∧
    ∃ h', Session.run (cfg 0) (Session.constructed [0xA7] 3)
      [.load (some [0x12, 0x00]), .setKeyState 15 true, .step, .display, .supplyDraws [0x5C], .setKeyState 15 false, .step, .reset] =
        .next h' :=
  ⟨⟨by decide, by decide, rfl⟩, ⟨_, rfl⟩, ⟨_, rfl⟩⟩

theorem witness_EveryInstructionCompletesWithTheListedPc :
    handlerFault (.callAddr 0xFFF) { State.reset with sp := 15 } = none ∧
    handlerFault (.drwVxVyN 0 0 15) { State.reset with i := 0xFF1 } = none ∧
    handlerFault (.ldMemIVx 15) { State.reset with i := 0xFF0 } = none := by decide

theorem witness_OnlyTheNamedInstructionsChangeEachState :
    (∃ t, exec .ret { State.reset with sp := 16 } = .next t ∧ t.sp ≠ 16) ∧
    (∃ t, exec (.ldFVx 0) (State.reset.setReg 0 1) = .next t ∧ t.i ≠ State.reset.i) :=
  ⟨⟨_, rfl, by decide⟩, ⟨_, rfl, by decide⟩⟩

theorem witness_OnlyTheNamedInstructionsChangeTheFlag :
    ∃ t, exec (.subVxVy 0 1) State.reset = .next t ∧ t.reg 15 ≠ State.reset.reg 15 :=
  ⟨_, rfl, by decide⟩

theorem witness_KeysReachOnlyTheKeySkips : ∀ x, Instr.ldVxK 0 ≠ .skpVx x ∧ Instr.ldVxK 0 ≠ .sknpVx x := by decide

theorem witness_DrawsBelongToTheEnvironment : (∀ x kk, Instr.ldVxK 0 ≠ .rndVxKk x kk) ∧
    (Session.constructed [] 3).machine.drawQueue = [] :=
  ⟨fun _ _ => nofun, rfl⟩

theorem witness_ReturnPopsAndAddsTwo : State.reset.sp.val = 0 ∧ ({ State.reset with sp := 16 } : State).sp.val ≠ 0 := by decide

theorem witness_JumpLoadsThePc : 0xFFF < 0x1000 ∧ State.reset.pc.toNat = 0x200 := by decide

theorem witness_IndexedJumpAddsRegisterZero : 0xFFF < 0x1000 := by decide

theorem witness_CallPushesItsOwnAddress : ({ State.reset with sp := 16 } : State).sp.val = 16 ∧ 0xFFF < 0x1000 ∧
    ({ State.reset with sp := 15 } : State).sp.val < 16 := by decide

theorem witness_CallThenReturnGoesOnAfterTheCall : ({ State.reset with sp := 15 } : State).sp.val < 16 := by decide

theorem witness_AddSetsTheCarryLast : (14 : RegIx) ≠ 15 := by decide

theorem witness_SubtractsSetNotBorrowLast : (14 : RegIx) ≠ 15 := by decide

theorem witness_ShiftsSetTheBitShiftedOutLast : (14 : RegIx) ≠ 15 := by decide

theorem witness_AddressRegisterIsLoadedAndPointed : 0xFFF < 0x1000 := by decide

theorem witness_RandomIsTheDrawnByteMasked : ({ State.reset with drawQueue := [0xA7] } : State).drawQueue = 0xA7 :: [] := rfl

theorem witness_DrawXorsTheSpriteOntoTheDisplay : 15 < 16 ∧ ({ State.reset with i := 0xFF1 } : State).i.toNat + 15 - 1 ≤ 0xFFF := by
  decide

theorem witness_DrawingTwiceRestoresTheDisplay : 15 < 16 := by decide

theorem witness_DrawFaultsWhereASpriteByteIsOutOfRange : 15 ≠ 0 ∧ ({ State.reset with i := 0xFF2 } : State).i.toNat + 15 - 1 > 0xFFF := by
  decide

theorem witness_KeySkipsLookAtTheNumberedKey : (10 : KeyNum).val = ((State.reset.setReg 1 0x1A).reg 1).toNat % 16 := by decide

theorem witness_KeyWaitBlocksThenStoresTheKey : State.reset.lrk = none ∧ ({ State.reset with lrk := some 15 } : State).lrk = some 15 := by
  decide

theorem witness_KeyWaitKeepsTheMachineAtTheInstruction : (cfg 1).fontRegionGuard = false ∧ (atTop 0xFF0A).pc.toNat ≤ 0xFFE ∧
    decode (atTop 0xFF0A).wordAtPc = .ok (.ldVxK 15) ∧ (atTop 0xFF0A).lrk = none := by decide

theorem witness_KeyReleaseCompletesTheWait : (State.reset.setKeyState 15 true).keyDown 15 = true := by decide

theorem witness_DecimalDigitsAreStored : ({ State.reset with i := 0xFFE } : State).i.toNat + 2 > 0xFFF ∧
    State.reset.mem.wf ∧ ({ State.reset with i := 0xFFD } : State).i.toNat + 2 ≤ 0xFFF ∧
    ∃ t, exec (.ldBVx 0) { State.reset with i := 0xFFD } = .next t :=
  ⟨by decide, by decide, by decide, _, rfl⟩

theorem witness_RegisterBlockIsStored : ({ State.reset with i := 0xFF1 } : State).i.toNat + (15 : RegIx).val > 0xFFF ∧
    State.reset.mem.wf ∧ ({ State.reset with i := 0xFF0 } : State).i.toNat + (15 : RegIx).val ≤ 0xFFF ∧
    ∃ t, exec (.ldMemIVx 15) { State.reset with i := 0xFF0 } = .next t :=
  ⟨by decide, by decide, by decide, _, rfl⟩

theorem witness_RegisterBlockIsLoaded : ({ State.reset with i := 0xFF1 } : State).i.toNat + (15 : RegIx).val > 0xFFF ∧
    ({ State.reset with i := 0xFF0 } : State).i.toNat + (15 : RegIx).val ≤ 0xFFF := by decide

theorem witness_StoredRegistersLoadBackUnchanged : State.reset.mem.wf ∧
    ∃ t, exec (.ldMemIVx 15) { State.reset with i := 0xFF0 } = .next t ∧ t.i = t.i ∧
      ∀ a, InRange 0xFF0 16 a → t.readByte a = t.readByte a :=
  ⟨by decide, _, rfl, rfl, fun _ _ => rfl⟩

theorem witness_MemoryReadsBackWhatWasWritten : Memory.wf [(0x200, 1), (0xFFF, 2)] ∧ 0xFFF < 0x1000 := by decide

theorem witness_CanonicalMemoriesThatReadAlikeAreEqual : Memory.wf [(0x200, 1)] ∧
    ∀ a, Memory.read [(0x200, 1)] a = Memory.read [(0x200, 1)] a :=
  ⟨by decide, fun _ => rfl⟩

theorem witness_StoreIsSeenByTheNextFetch : State.reset.mem.wf ∧ 1 ≤ (1 : RegIx).val ∧
    ({ State.reset with pc := 0xFFC, i := 0xFFE } : State).i = ({ State.reset with pc := 0xFFC, i := 0xFFE } : State).pc + 2 ∧
    ({ State.reset with pc := 0xFFC, i := 0xFFE } : State).i.toNat + (1 : RegIx).val ≤ 0xFFF := by decide

theorem witness_LoadInstallsTheFontAndTheImage : (List.replicate 3584 (0x60 : Byte)).length ≤ 3584 :=
  (List.length_replicate ..).le

theorem witness_FirstStepRunsTheFirstWordOfTheImage : (List.replicate 3582 (0x60 : Byte)).length ≤ 3582 ∧
    decode (BitVec.ofNat 16 ((0x60 : Byte).toNat * 256 + (0x05 : Byte).toNat)) = .ok (.ldVxKk 0 5) :=
  ⟨(List.length_replicate ..).le, by decide⟩

theorem witness_HostMisuseIsRefused : (⟨.running, State.reset⟩ : Session).phase ≠ .constructed ∧
    (Session.constructed [] 0).phase = .constructed ∧ (List.replicate 3585 (0x60 : Byte)).length > 3584 ∧ 16 > 15 :=
  ⟨by decide, rfl, by rw [List.length_replicate]; decide, by decide⟩

theorem witness_KeyStateIsSetAndReleasesAreMarked : (State.reset.setKeyState 15 true).keyDown 15 = true ∧
    State.reset.keyDown 15 = false := by decide

end Sys2Proof.Tests
end

namespace Sys2Proof.Machine

/-! ## What a handler does to memory -/

/-- The bytes that an instruction stores from the address in `I` upward: the digits of `Fx33` (R176), the register block of `Fx55`
(R177), and none of any other instruction. -/
def storedBytes (i : Instr) (s : State) : List Byte :=
  match i with
  | .ldBVx x => decimalDigits (s.reg x)
  | .ldMemIVx x => s.regBlock x
  | _ => []

/-- `storedBytes` is the whole effect of a handler on memory. -/
theorem exec_mem {i : Instr} {s u : State} (h : exec i s = .next u) :
    u.mem = s.mem.writeBytes s.dataAddress (storedBytes i s) := by
  cases i with
  | ret | callAddr =>
    simp only [exec, execRet, execCallAddr] at h
    split at h
    · obtain rfl := Host.Outcome.next.inj h; rfl
    · cases h
  | ldVxK x =>
    simp only [exec, execLdVxK] at h
    split at h <;> (obtain rfl := Host.Outcome.next.inj h; rfl)
  | drwVxVyN | ldBVx | ldMemIVx =>
    obtain ⟨-, rfl⟩ := accessing_eq_next_iff.mp h; rfl
  | ldVxMemI x =>
    obtain ⟨-, rfl⟩ := accessing_eq_next_iff.mp h
    simp [storedBytes, Memory.writeBytes]
  | _ => obtain rfl := Host.Outcome.next.inj h; rfl

/-- A handler changes no byte outside the bytes it stores. -/
theorem exec_readByte_outside {i : Instr} {s u : State} (h : exec i s = .next u) {a : Nat}
    (ha : ¬ InRange s.dataAddress (storedBytes i s).length a) : u.readByte a = s.readByte a := by
  rw [State.readByte, exec_mem h]
  exact Memory.read_writeBytes_outside ha

/-! ## How a step faults -/

/-- A fetch stops out of range or, in range, at the guard (R191, U1). -/
theorem fetch_eq_error_iff {c : Config} {s : State} {f : Fault} :
    fetch c s = .error f ↔
      (s.pc.toNat > 0xFFE ∧ f = .addressOutOfRange (max s.pc.toNat 0x1000)) ∨
      (s.pc.toNat ≤ 0xFFE ∧ fetchAliasesFont c s = true ∧ f = .fontRegionAliased s.pc.toNat) := by
  have range := outOfRange_iff s.pc.toNat 2
  unfold fetch
  cases h : outOfRange s.pc.toNat 2
  · have : s.pc.toNat ≤ 0xFFE := by simp [h] at range; omega
    cases fetchAliasesFont c s <;> simp [this, eq_comm]
  · have : s.pc.toNat > 0xFFE := by have := range.mp h; omega
    have : ¬ s.pc.toNat ≤ 0xFFE := by omega
    simp only [if_true, lowestBadAddress, Except.error.injEq, eq_comm (b := f)]
    tauto

/-- The execute and count stages stop at the guard or, past it, at the handler's own fault (R190, U1). -/
theorem execAndCount_eq_fault_iff {c : Config} {i : Instr} {s : State} {f : Fault} :
    execAndCount c i s = .fault f ↔
      (storeAliasesFont c i s = true ∧ f = .fontRegionAliased s.dataAddress) ∨
      (storeAliasesFont c i s = false ∧ exec i s = .fault f) := by
  unfold execAndCount
  cases storeAliasesFont c i s
  · cases exec i s <;> simp
  · simp [raise, eq_comm]

/-- A step that faults did so in the fetch, in the decode, or in the execution of the decoded instruction (R190). -/
theorem stepWith_eq_fault {c : Config} {s : State} {f : Fault} (h : stepWith c s = .fault f) :
    fetch c s = .error f ∨
    (fetch c s = .ok s.wordAtPc ∧ ∃ e, decode s.wordAtPc = .error e ∧ f = .unknownOpcode s.wordAtPc) ∨
    (fetch c s = .ok s.wordAtPc ∧ ∃ i, decode s.wordAtPc = .ok i ∧ execAndCount c i s = .fault f) := by
  unfold stepWith at h
  split at h
  · next stopped => exact .inl (stopped.trans (congrArg _ (Host.Outcome.fault.inj h)))
  · next w fetched =>
    obtain ⟨-, -, rfl⟩ := fetch_eq_ok_iff.mp fetched
    split at h
    · next e undecoded => exact .inr (.inl ⟨fetched, e, undecoded, (Host.Outcome.fault.inj h).symm⟩)
    · next i decoded => exact .inr (.inr ⟨fetched, i, decoded, h⟩)

/-- No handler raises the guard's fault: the two guards stand before it (U1). -/
theorem exec_ne_fontRegionAliased (i : Instr) (s : State) (a : Nat) : exec i s ≠ .fault (.fontRegionAliased a) := by
  intro h
  cases i with
  | ret | callAddr =>
    simp only [exec, execRet, execCallAddr] at h
    split at h <;> cases h
  | ldVxK x =>
    simp only [exec, execLdVxK] at h
    split at h <;> cases h
  | drwVxVyN | ldBVx | ldMemIVx | ldVxMemI =>
    obtain ⟨-, other⟩ := accessing_eq_fault_iff.mp h
    cases other
  | _ => cases h

/-! ## The font-region guard (U1) -/

theorem fetchAliasesFont_of_guard_off {c : Config} (hc : c.fontRegionGuard = false) (s : State) :
    fetchAliasesFont c s = false := by
  simp [fetchAliasesFont, hc]

theorem storeAliasesFont_of_guard_off {c : Config} (hc : c.fontRegionGuard = false) (i : Instr) (s : State) :
    storeAliasesFont c i s = false := by
  unfold storeAliasesFont
  split <;> simp [hc]

/-- What the fetch guard lets through lies at 0x200 or above. -/
theorem le_pc_of_fetch_guarded {c : Config} {s : State} (hc : c.fontRegionGuard = true)
    (h : fetchAliasesFont c s = false) : 0x200 ≤ s.pc.toNat := by
  simpa [fetchAliasesFont, hc] using h

/-- What the store guard lets through stores nothing below 0x200. -/
theorem not_inRange_of_store_guarded {c : Config} {i : Instr} {s : State} (hc : c.fontRegionGuard = true)
    (h : storeAliasesFont c i s = false) {a : Nat} (ha : a < 0x200) :
    ¬ InRange s.dataAddress (storedBytes i s).length a := by
  have base : storedBytes i s = [] ∨ 0x200 ≤ s.dataAddress := by
    cases i with
    | ldBVx | ldMemIVx => exact .inr (by simpa [storeAliasesFont, hc] using h)
    | _ => exact .inl rfl
  rintro ⟨low, high⟩
  rcases base with none | base
  · simp only [none, List.length_nil] at high; omega
  · omega

/-- With the guard on, a step that goes on was fetched from 0x200 or above and leaves the region below 0x200 as it was. -/
theorem stepWith_guarded_avoids_fontRegion {c : Config} {s t : State} (hc : c.fontRegionGuard = true)
    (h : stepWith c s = .next t) : 0x200 ≤ s.pc.toNat ∧ ∀ a < 0x200, t.readByte a = s.readByte a := by
  obtain ⟨i, u, -, noAlias, -, noStore, ran, rfl⟩ := stepWith_eq_next h
  exact ⟨le_pc_of_fetch_guarded hc noAlias,
    fun a ha => exec_readByte_outside ran (not_inRange_of_store_guarded hc noStore ha)⟩

/-- A step that goes on goes on to the same state in a configuration that differs in having the guard off. -/
theorem stepWith_guard_off_of_next {c d : Config} {s t : State} (h : stepWith c s = .next t)
    (hd : d.fontRegionGuard = false) (sameRatio : d.cyclesPerTick = c.cyclesPerTick) : stepWith d s = .next t := by
  obtain ⟨i, u, inRange, -, decoded, -, ran, rfl⟩ := stepWith_eq_next h
  rw [stepWith_of_decode hd inRange decoded, ran, sameRatio]

/-- With the guard off no step raises its fault: neither guard objects, and no handler raises it. -/
theorem stepWith_ne_fontRegionAliased {c : Config} (hc : c.fontRegionGuard = false) (s : State) (a : Nat) :
    stepWith c s ≠ .fault (.fontRegionAliased a) := by
  intro h
  rcases stepWith_eq_fault h with fetched | ⟨-, e, -, other⟩ | ⟨-, i, -, ran⟩
  · rcases fetch_eq_error_iff.mp fetched with ⟨-, other⟩ | ⟨-, aliased, -⟩
    · cases other
    · simp [fetchAliasesFont_of_guard_off hc] at aliased
  · cases other
  · rcases execAndCount_eq_fault_iff.mp ran with ⟨aliased, -⟩ | ⟨-, raised⟩
    · simp [storeAliasesFont_of_guard_off hc] at aliased
    · exact exec_ne_fontRegionAliased i s a raised

/-- Settles O11: the guards only stand before the handler, which is the same with them off, and what they let through neither fetches
nor stores below 0x200. -/
theorem fontRegionGuardOnlyRemovesBehaviours : Obligations.FontRegionGuardOnlyRemovesBehaviours :=
  ⟨fun _ _ _ h => ⟨stepWith_guard_off_of_next h rfl rfl, stepWith_guarded_avoids_fontRegion rfl h⟩,
    fun _ s a hc => stepWith_ne_fontRegionAliased hc s a⟩

end Sys2Proof.Machine

namespace Sys2Proof.Machine

/-! ## The frame of each update of the state -/

/-- Two changes in a row change at most what either changes. -/
theorem Frame.trans {P Q R : Component → Prop} {s t u : State} (first : Frame P s t) (second : Frame Q t u)
    (covered : ∀ c, P c ∨ Q c → R c) : Frame R s u := by
  intro c hc
  have hst := first c fun p => hc (covered c (.inl p))
  have htu := second c fun q => hc (covered c (.inr q))
  cases c with
  | draws => exact ⟨htu.1.trans hst.1, htu.2.trans hst.2⟩
  | _ => exact Eq.trans htu hst

theorem Frame.refl (P : Component → Prop) (s : State) : Frame P s s := by
  intro c _
  cases c with
  | draws => exact ⟨rfl, rfl⟩
  | _ => rfl

section
variable (s : State)

/-- A new `PC`: what `advance`, `skipIf` and `setPc` do. -/
theorem frame_pc (w : Word) : Frame (fun c => c = .pc) s { s with pc := w } := by
  intro c hc
  cases c with
  | pc => exact absurd rfl hc
  | draws => exact ⟨rfl, rfl⟩
  | _ => rfl

theorem frame_setReg (x : RegIx) (b : Byte) : Frame (fun c => c = .reg x) s (s.setReg x b) := by
  intro c hc
  cases c with
  | reg r => exact State.reg_setReg_ne s (fun e => hc (congrArg _ e)) b
  | draws => exact ⟨rfl, rfl⟩
  | _ => rfl

theorem frame_loadRegBlock (x : RegIx) (a : Nat) :
    Frame (fun c => ∃ r : RegIx, c = .reg r ∧ r.val ≤ x.val) s (s.loadRegBlock x a) := by
  intro c hc
  cases c with
  | reg r => exact (State.reg_loadRegBlock s x r a).trans (if_neg fun le => hc ⟨r, rfl, le⟩)
  | _ => simp [Component.same]

theorem frame_i (w : Word) : Frame (fun c => c = .i) s { s with i := w } := by
  intro c hc
  cases c with
  | i => exact absurd rfl hc
  | draws => exact ⟨rfl, rfl⟩
  | _ => rfl

theorem frame_dt (b : Byte) : Frame (fun c => c = .dt) s { s with dt := b } := by
  intro c hc
  cases c with
  | dt => exact absurd rfl hc
  | draws => exact ⟨rfl, rfl⟩
  | _ => rfl

theorem frame_st (b : Byte) : Frame (fun c => c = .st) s { s with st := b } := by
  intro c hc
  cases c with
  | st => exact absurd rfl hc
  | draws => exact ⟨rfl, rfl⟩
  | _ => rfl

theorem frame_lrk (k : Option KeyNum) : Frame (fun c => c = .lrk) s { s with lrk := k } := by
  intro c hc
  cases c with
  | lrk => exact absurd rfl hc
  | draws => exact ⟨rfl, rfl⟩
  | _ => rfl

theorem frame_disp (d : Display) : Frame (fun c => ∃ r k, c = .cell r k) s { s with disp := d } := by
  intro c hc
  cases c with
  | cell r k => exact absurd ⟨r, k, rfl⟩ hc
  | draws => exact ⟨rfl, rfl⟩
  | _ => rfl

theorem frame_consumeDraw : Frame (fun c => c = .draws) s s.consumeDraw := by
  intro c hc
  cases c with
  | draws => exact absurd rfl hc
  | _ => rfl

theorem frame_pop (h : 0 < s.sp.val) : Frame (fun c => c = .sp) s (s.pop h) := by
  intro c hc
  cases c with
  | sp => exact absurd rfl hc
  | draws => exact ⟨rfl, rfl⟩
  | _ => rfl

theorem frame_push (w : Word) (h : s.sp.val < 16) :
    Frame (fun c => c = .sp ∨ ∃ k : Fin 16, c = .slot k ∧ k.val = s.sp.val) s (s.push w h) := by
  intro c hc
  cases c with
  | sp => exact absurd (.inl rfl) hc
  | slot k => exact (State.slot_push s w h k).trans (if_neg fun e => hc (.inr ⟨k, rfl, e⟩))
  | draws => exact ⟨rfl, rfl⟩
  | _ => rfl

theorem frame_writeBytes (a : Nat) (bs : List Byte) :
    Frame (fun c => ∃ k, c = .byte k ∧ InRange a bs.length k) s (s.writeBytes a bs) := by
  intro c hc
  cases c with
  | byte k => exact State.readByte_writeBytes_outside s fun inside => hc ⟨k, rfl, inside⟩
  | draws => exact ⟨rfl, rfl⟩
  | _ => rfl

/-- The frame of an operation with a result and no flag (R120 to R125). -/
theorem frame_plain (x : RegIx) (b : Byte) : Frame (fun c => c ∈ [Component.reg x, .pc]) s ((s.setReg x b).advance 2) :=
  (frame_setReg s x b).trans (frame_pc _ _) (by simp)

/-- The frame of an operation with a result and a flag (R126 to R130). -/
theorem frame_flagged (x : RegIx) (b : Byte) (f : Bool) :
    Frame (fun c => c ∈ [Component.reg x, .reg 15, .pc]) s ((s.setRegThenFlag x b f).advance 2) :=
  (frame_setReg s x b).trans ((frame_setReg _ flagReg (flagByte f)).trans (frame_pc _ _) fun _ => id)
    (by simp [flagReg])

end

/-! ## The handlers that look at the state before they go on -/

theorem execRet_eq_next_iff {s t : State} :
    execRet s = .next t ↔ ∃ h : 0 < s.sp.val, t = (s.pop h).setPc (s.topSlot h + 2) := by
  unfold execRet
  split
  · next h => simp [h, eq_comm]
  · next h => simp [h, raise]

theorem execCallAddr_eq_next_iff {addr : Nat} {s t : State} :
    execCallAddr addr s = .next t ↔ ∃ h : s.sp.val < 16, t = (s.push s.pc h).setPc (addrOperand addr) := by
  unfold execCallAddr
  split
  · next h => simp [h, eq_comm]
  · next h => simp [h, raise]

/-- A key wait that goes on is blocked and changes nothing, or takes the released key (R171). -/
theorem execLdVxK_eq_next_iff {x : RegIx} {s t : State} :
    execLdVxK x s = .next t ↔
      (s.lrk = none ∧ t = s) ∨
      ∃ k, s.lrk = some k ∧ t = ({ s with lrk := none }.setReg x (BitVec.ofNat 8 k.val)).advance 2 := by
  unfold execLdVxK
  split
  · next blocked => simp [blocked, eq_comm]
  · next k released => simp [released, eq_comm]

/-! ## What each instruction may change (R36, R39) -/

/-- The components that an instruction may change when its handler runs in `s`. The addresses of a store are those from `I` upward. -/
def mayChange (i : Instr) (s : State) : Component → Prop :=
  match i with
  | .cls => fun c => c = .pc ∨ ∃ r k, c = .cell r k
  | .ret => fun c => c ∈ [Component.pc, .sp]
  | .callAddr _ => fun c => c = .pc ∨ c = .sp ∨ ∃ k : Fin 16, c = .slot k ∧ k.val = s.sp.val
  | .jpAddr _ | .jpV0Addr _ | .seVxKk _ _ | .sneVxKk _ _ | .seVxVy _ _ | .sneVxVy _ _ | .skpVx _ | .sknpVx _ =>
    fun c => c = .pc
  | .ldVxKk x _ | .addVxKk x _ | .ldVxVy x _ | .orVxVy x _ | .andVxVy x _ | .xorVxVy x _ | .ldVxDt x =>
    fun c => c ∈ [Component.reg x, .pc]
  | .addVxVy x _ | .subVxVy x _ | .shrVx x _ | .subnVxVy x _ | .shlVx x _ =>
    fun c => c ∈ [Component.reg x, .reg 15, .pc]
  | .ldIAddr _ | .addIVx _ | .ldFVx _ => fun c => c ∈ [Component.i, .pc]
  | .rndVxKk x _ => fun c => c ∈ [Component.reg x, .pc, .draws]
  | .drwVxVyN _ _ _ => fun c => c = .reg 15 ∨ c = .pc ∨ ∃ r k, c = .cell r k
  | .ldVxK x => fun c => c ∈ [Component.reg x, .lrk, .pc]
  | .ldDtVx _ => fun c => c ∈ [Component.dt, .pc]
  | .ldStVx _ => fun c => c ∈ [Component.st, .pc]
  | .ldBVx _ => fun c => c = .pc ∨ ∃ a, c = .byte a ∧ InRange s.dataAddress 3 a
  | .ldMemIVx x => fun c => c = .pc ∨ ∃ a, c = .byte a ∧ InRange s.dataAddress (x.val + 1) a
  | .ldVxMemI x => fun c => c = .pc ∨ ∃ r : RegIx, c = .reg r ∧ r.val ≤ x.val

/-- An instruction changes nothing but what `mayChange` lists for it. -/
theorem exec_frame {i : Instr} {s t : State} (h : exec i s = .next t) : Frame (mayChange i s) s t := by
  cases i with
  | cls =>
    obtain rfl := Host.Outcome.next.inj h
    exact (frame_disp s _).trans (frame_pc _ _) fun _ => Or.symm
  | ret =>
    obtain ⟨nonempty, rfl⟩ := execRet_eq_next_iff.mp h
    exact (frame_pop s nonempty).trans (frame_pc _ _) (by simp [mayChange])
  | callAddr addr =>
    obtain ⟨room, rfl⟩ := execCallAddr_eq_next_iff.mp h
    exact (frame_push s s.pc room).trans (frame_pc _ _) fun _ => Or.symm
  | jpAddr | jpV0Addr | seVxKk | sneVxKk | seVxVy | sneVxVy | skpVx | sknpVx =>
    obtain rfl := Host.Outcome.next.inj h
    exact frame_pc s _
  | ldVxKk | addVxKk | ldVxVy | orVxVy | andVxVy | xorVxVy | ldVxDt =>
    obtain rfl := Host.Outcome.next.inj h
    exact frame_plain s _ _
  | addVxVy | subVxVy | shrVx | subnVxVy | shlVx =>
    obtain rfl := Host.Outcome.next.inj h
    exact frame_flagged s _ _ _
  | ldIAddr | addIVx | ldFVx =>
    obtain rfl := Host.Outcome.next.inj h
    exact (frame_i s _).trans (frame_pc _ _) (by simp [mayChange])
  | rndVxKk x kk =>
    obtain rfl := Host.Outcome.next.inj h
    exact (frame_consumeDraw s).trans (frame_plain _ x _) (by simp [mayChange])
  | drwVxVyN x y n =>
    obtain ⟨-, rfl⟩ := accessing_eq_next_iff.mp h
    exact (frame_disp s _).trans ((frame_setReg _ flagReg _).trans (frame_pc _ _) fun _ => id)
      fun _ => (or_comm.trans or_assoc).mp
  | ldVxK x =>
    obtain ⟨-, rfl⟩ | ⟨k, -, rfl⟩ := execLdVxK_eq_next_iff.mp h
    · exact Frame.refl _ _
    · exact (frame_lrk s none).trans (frame_plain _ x _) (by simp [mayChange])
  | ldDtVx =>
    obtain rfl := Host.Outcome.next.inj h
    exact (frame_dt s _).trans (frame_pc _ _) (by simp [mayChange])
  | ldStVx =>
    obtain rfl := Host.Outcome.next.inj h
    exact (frame_st s _).trans (frame_pc _ _) (by simp [mayChange])
  | ldBVx x =>
    obtain ⟨-, rfl⟩ := accessing_eq_next_iff.mp h
    exact (frame_writeBytes s _ _).trans (frame_pc _ _) fun _ => Or.symm
  | ldMemIVx x =>
    obtain ⟨-, rfl⟩ := accessing_eq_next_iff.mp h
    refine (frame_writeBytes s _ _).trans (frame_pc _ _) fun _ => ?_
    rw [length_regBlock]
    exact Or.symm
  | ldVxMemI x =>
    obtain ⟨-, rfl⟩ := accessing_eq_next_iff.mp h
    exact (frame_loadRegBlock s x _).trans (frame_pc _ _) fun _ => Or.symm

/-- What an instruction has changed, it may change. -/
theorem mayChange_of_exec {i : Instr} {s t : State} (h : exec i s = .next t) {c : Component} (changed : ¬ c.same s t) :
    mayChange i s c :=
  by_contra fun outside => changed (exec_frame h c outside)

/-! ## Which instructions may change each component (R36) -/

section
variable {i : Instr} {s : State}

theorem not_mayChange_key (k : KeyNum) : ¬ mayChange i s (.key k) := by
  cases i <;> simp [mayChange]

theorem not_mayChange_cyc : ¬ mayChange i s .cyc := by
  cases i <;> simp [mayChange]

theorem not_mayChange_tone : ¬ mayChange i s .tone := by
  cases i <;> simp [mayChange]

theorem not_mayChange_events : ¬ mayChange i s .events := by
  cases i <;> simp [mayChange]

theorem mayChange_sp : mayChange i s .sp ↔ i = .ret ∨ ∃ addr, i = .callAddr addr := by
  cases i <;> simp [mayChange]

theorem mayChange_slot {k : Fin 16} : mayChange i s (.slot k) ↔ ∃ addr, i = .callAddr addr ∧ k.val = s.sp.val := by
  cases i <;> simp [mayChange]

theorem mayChange_cell {r : Fin 32} {c : Fin 64} :
    mayChange i s (.cell r c) ↔ i = .cls ∨ ∃ x y n, i = .drwVxVyN x y n := by
  cases i <;> simp [mayChange]

theorem mayChange_i :
    mayChange i s .i ↔ (∃ addr, i = .ldIAddr addr) ∨ (∃ x, i = .addIVx x) ∨ ∃ x, i = .ldFVx x := by
  cases i <;> simp [mayChange]

theorem mayChange_dt : mayChange i s .dt ↔ ∃ x, i = .ldDtVx x := by
  cases i <;> simp [mayChange]

theorem mayChange_st : mayChange i s .st ↔ ∃ x, i = .ldStVx x := by
  cases i <;> simp [mayChange]

theorem mayChange_lrk : mayChange i s .lrk ↔ ∃ x, i = .ldVxK x := by
  cases i <;> simp [mayChange]

theorem mayChange_byte {a : Nat} :
    mayChange i s (.byte a) ↔
      (∃ x, i = .ldBVx x ∧ InRange s.i.toNat 3 a) ∨ ∃ x, i = .ldMemIVx x ∧ InRange s.i.toNat (x.val + 1) a := by
  cases i <;> simp [mayChange, State.dataAddress]

theorem mayChange_draws : mayChange i s .draws ↔ ∃ x kk, i = .rndVxKk x kk := by
  cases i <;> simp [mayChange]

/-- The flag register: the flag-setting operations, and those whose destination it is (R21). -/
theorem mayChange_flag :
    mayChange i s (.reg 15) ↔
      (∃ x y, i = .addVxVy x y ∨ i = .subVxVy x y ∨ i = .shrVx x y ∨ i = .subnVxVy x y ∨ i = .shlVx x y) ∨
      (∃ x y n, i = .drwVxVyN x y n) ∨
      (∃ kk, i = .ldVxKk 15 kk ∨ i = .addVxKk 15 kk ∨ i = .rndVxKk 15 kk) ∨
      (∃ y, i = .ldVxVy 15 y ∨ i = .orVxVy 15 y ∨ i = .andVxVy 15 y ∨ i = .xorVxVy 15 y) ∨
      i = .ldVxDt 15 ∨ i = .ldVxK 15 ∨ i = .ldVxMemI 15 := by
  cases i with
  | ldVxMemI x =>
    have top : 15 ≤ x ↔ x = 15 := Fin.last_le_iff (n := 15)
    simp [mayChange, top]
  | _ => simp [mayChange, eq_comm]

end

/-- Settles O21: a component that has changed is one that `mayChange` lists for the instruction, and each clause says which those are. -/
theorem onlyTheNamedInstructionsChangeEachState : Obligations.OnlyTheNamedInstructionsChangeEachState := by
  intro i s t h
  have keeps := exec_frame h
  have only {c : Component} : ¬ c.same s t → mayChange i s c := mayChange_of_exec h
  refine ⟨fun k => keeps (.key k) (not_mayChange_key k), keeps .cyc not_mayChange_cyc, keeps .tone not_mayChange_tone,
    keeps .events not_mayChange_events, fun d => mayChange_sp.mp (only d),
    fun k d => (mayChange_slot.mp (only (c := .slot k) d)).imp fun _ call => call.1,
    fun r c d => mayChange_cell.mp (only (c := .cell r c) d), fun d => mayChange_i.mp (only d),
    fun d => mayChange_dt.mp (only d), fun d => mayChange_st.mp (only d), fun d => ?_,
    fun a d => mayChange_byte.mp (only (c := .byte a) d),
    fun d => mayChange_draws.mp (only (c := .draws) fun same => d.elim (· same.2) (· same.1))⟩
  obtain ⟨x, rfl⟩ := mayChange_lrk.mp (only (c := .lrk) d)
  obtain ⟨-, rfl⟩ | ⟨k, -, rfl⟩ := execLdVxK_eq_next_iff.mp h
  · exact absurd rfl d
  · exact ⟨rfl, x, rfl⟩

/-- Settles O22: an instruction that has changed `V[15]` is one for which `mayChange` lists it. -/
theorem onlyTheNamedInstructionsChangeTheFlag : Obligations.OnlyTheNamedInstructionsChangeTheFlag :=
  fun _ _ _ h changed => mayChange_flag.mp (mayChange_of_exec h (c := .reg 15) changed)

/-! ## The keys are read by the key skips only -/

/-- The answer with `f` done to its next state. -/
def mapNext (f : State → State) : Result → Result
  | .next t => .next (f t)
  | .fault r => .fault r
  | .refused r => .refused r

/-- The range check does not look at the state after the access. -/
theorem accessing_mapNext (f : State → State) (base n : Nat) (after : State) :
    mapNext f (accessing base n after) = accessing base n (f after) :=
  apply_ite (mapNext f) _ _ _

def State.withKeys (keys : Vector Bool 16) (s : State) : State := { s with keys := keys }

/-- Every handler but the key skips commutes with a change of the keys (R31). -/
theorem exec_withKeys {i : Instr} (noSkip : ∀ x, i ≠ .skpVx x ∧ i ≠ .sknpVx x) (s : State) (keys : Vector Bool 16) :
    mapNext (State.withKeys keys) (exec i s) = exec i (s.withKeys keys) := by
  cases i with
  | skpVx x => exact absurd rfl (noSkip x).1
  | sknpVx x => exact absurd rfl (noSkip x).2
  | ret | callAddr => exact apply_dite (mapNext (State.withKeys keys)) _ _ _
  | ldVxK x =>
    simp only [exec, execLdVxK, State.withKeys]
    split <;> rfl
  | drwVxVyN | ldBVx | ldMemIVx | ldVxMemI => exact accessing_mapNext (State.withKeys keys) _ _ _
  | _ => rfl

/-- Settles O23: changing the keys before the handler is changing them after it. -/
theorem keysReachOnlyTheKeySkips : Obligations.KeysReachOnlyTheKeySkips :=
  fun _ s keys noSkip => (exec_withKeys noSkip s keys).symm

/-! ## The invariant -/

/-- What a handler stores lies inside the 4096 cells (R50, R56). -/
theorem exec_storedBytes_inRange {i : Instr} {s t : State} (h : exec i s = .next t) :
    storedBytes i s = [] ∨ s.dataAddress + (storedBytes i s).length ≤ 0x1000 := by
  cases i with
  | ldBVx x =>
    obtain ⟨inRange, -⟩ := accessing_eq_next_iff.mp h
    exact .inr (by simpa [storedBytes] using inRange)
  | ldMemIVx x =>
    obtain ⟨inRange, -⟩ := accessing_eq_next_iff.mp h
    exact .inr (by simpa [storedBytes] using inRange)
  | _ => exact .inl rfl

/-- A handler keeps memory in its canonical form. -/
theorem exec_keeps_wf {i : Instr} {s t : State} (h : exec i s = .next t) (canonical : s.mem.wf) : t.mem.wf := by
  rw [exec_mem h]
  obtain nothing | inRange := exec_storedBytes_inRange h
  · rw [nothing]; exact canonical
  · exact Memory.wf_writeBytes canonical inRange

/-- A handler keeps the whole invariant: it counts no cycle and emits no event. -/
theorem exec_keeps_inv {c : Config} {i : Instr} {s t : State} (h : exec i s = .next t) (inv : s.Inv c) : t.Inv c := by
  have cyc : t.cyc = s.cyc := exec_frame h .cyc not_mayChange_cyc
  have tone : t.tone = s.tone := exec_frame h .tone not_mayChange_tone
  have events : t.events = s.events := exec_frame h .events not_mayChange_events
  exact ⟨exec_keeps_wf h inv.memory, cyc ▸ inv.cycle, by rw [events, tone]; exact inv.sound⟩

/-- A sequence of events cut in two sounds through the tone after its first part. -/
theorem toneAfter_append {b tone : Bool} {es : List SoundEvent} (fs : List SoundEvent) (h : toneAfter b es = some tone) :
    toneAfter b (es ++ fs) = toneAfter tone fs := by
  induction es generalizing b with
  | nil => obtain rfl := Option.some.inj h; rfl
  | cons e es ih =>
    cases b <;> cases e
    · exact ih h
    · cases h
    · cases h
    · exact ih h

/-- The events emitted alternate, and `TONE` says whether the last was `SoundOn` (R29, R225). -/
def State.Sound (s : State) : Prop := toneAfter false s.events = some s.tone

theorem soundOnCheck_keeps_sound {s : State} (h : s.Sound) : (soundOnCheck s).Sound := by
  unfold soundOnCheck
  split
  · next on => rw [State.Sound, toneAfter_append _ h, on.2]; rfl
  · exact h

theorem soundOffCheck_keeps_sound {s : State} (h : s.Sound) : (soundOffCheck s).Sound := by
  unfold soundOffCheck
  split
  · next off => rw [State.Sound, toneAfter_append _ h, off.2]; rfl
  · exact h

/-- A tick emits what the tone allows: each check fires in the tone its event ends (R225). -/
theorem timerTick_keeps_sound {s : State} (h : s.Sound) : (timerTick s).Sound :=
  soundOffCheck_keeps_sound (soundOnCheck_keeps_sound h : (countTimers (soundOnCheck s)).Sound)

theorem countCycle_keeps_sound (N : Nat) {s : State} (h : s.Sound) : (countCycle N s).Sound := by
  rw [countCycle_eq]
  split
  · exact timerTick_keeps_sound (s := { s with cyc := 0 }) h
  · exact h

/-- The count stays below `N`: it starts again at 0 where it would reach it (R28, R223). -/
theorem countCycle_cyc_lt {N : Nat} {s : State} (h : s.cyc < N) : (countCycle N s).cyc < N := by
  have count : (countCycle N s).cyc = bif decide (s.cyc + 1 = N) then 0 else s.cyc + 1 := rfl
  by_cases due : s.cyc + 1 = N
  · simp only [count, due, decide_true, cond_true]; omega
  · simp only [count, due, decide_false, cond_false]; omega

theorem countCycle_keeps_inv {c : Config} {s : State} (inv : s.Inv c) : (countCycle c.cyclesPerTick s).Inv c :=
  ⟨inv.memory, countCycle_cyc_lt inv.cycle, countCycle_keeps_sound c.cyclesPerTick inv.sound⟩

/-- A step keeps the invariant: its handler does, and so does the count after it. -/
theorem stepWith_keeps_inv {c : Config} {s t : State} (inv : s.Inv c) (h : stepWith c s = .next t) : t.Inv c := by
  obtain ⟨i, u, -, -, -, -, ran, rfl⟩ := stepWith_eq_next h
  exact countCycle_keeps_inv (exec_keeps_inv ran inv)

/-- Settles O15, for every `Config`; the build's own step is one of them. -/
theorem stepKeepsTheInvariant : Obligations.StepKeepsTheInvariant :=
  ⟨fun _ _ _ => stepWith_keeps_inv, fun _ _ => stepWith_keeps_inv⟩

/-! ## Reset -/

/-- A newly constructed machine meets the invariant, whatever the environment holds ready. -/
theorem constructed_inv (c : Config) (supplied : List Byte) (drawn : Nat) : (State.constructed supplied drawn).Inv c :=
  ⟨Memory.wf_nil, c.cyclesPerTick_pos, rfl⟩

/-- Settles O16: the reset state is a newly constructed machine. -/
theorem resetMeetsTheInvariant : Obligations.ResetMeetsTheInvariant := fun c => constructed_inv c [] 0

theorem reset_reg (r : RegIx) : State.reset.reg r = 0 := by simp [State.reset, State.reg]

theorem reset_slot (k : Fin 16) : State.reset.slot k = 0 := by simp [State.reset, State.slot]

theorem reset_keyDown (k : KeyNum) : State.reset.keyDown k = false := by simp [State.reset, State.keyDown]

/-- Reset memory lists nothing, so the font is read below 0x050 and 0 above (R34). -/
theorem reset_readByte (a : Nat) : State.reset.readByte a = if h : a < 80 then Config.font[a] else 0 := rfl

/-- Settles O18: the fields by definition, the vectors and memory by their reads. -/
theorem resetLeavesTheListedValues : Obligations.ResetLeavesTheListedValues :=
  ⟨reset_reg, rfl, rfl, reset_slot, rfl, rfl, rfl, rfl, rfl, Display.cell_clear, reset_keyDown, rfl,
    fun a font => (reset_readByte a).trans (dif_pos font),
    fun a above _ => (reset_readByte a).trans (dif_neg (Nat.not_lt.mpr above)), rfl⟩

end Sys2Proof.Machine

namespace Sys2Proof.Machine

/-! ## Memory as a canonical list (R50, R55) -/

/-- Settles O52, by the laws of one write. -/
theorem memoryReadsBackWhatWasWritten : Obligations.MemoryReadsBackWhatWasWritten :=
  fun m a b canonical inside =>
    ⟨Memory.wf_write b canonical inside, Memory.read_write_same a b canonical,
      fun _ other => Memory.read_write_other m b other⟩

namespace Memory

/-- In canonical form every address listed after the first entry lies above it. -/
theorem head_lt_of_wf {c : Host.Cell} {m : Memory} (h : wf (c :: m)) : ∀ d ∈ m, c.1 < d.1 :=
  (List.pairwise_cons.mp h.1).1

theorem head_ne_unlisted_of_wf {c : Host.Cell} {m : Memory} (h : wf (c :: m)) : c.2 ≠ unlisted c.1 :=
  (h.2 c (List.mem_cons_self ..)).2

theorem read_cons_self (c : Host.Cell) (m : Memory) : read (c :: m) c.1 = c.2 := if_pos rfl

/-- Without its first entry a canonical memory reads as unlisted at that entry's address and elsewhere as before. -/
theorem read_tail_of_wf {c : Host.Cell} {m : Memory} (h : wf (c :: m)) (a : Nat) :
    m.read a = if c.1 = a then unlisted a else read (c :: m) a := by
  by_cases e : c.1 = a
  · subst e
    rw [if_pos rfl, read_of_forall_gt (head_lt_of_wf h)]
  · rw [if_neg e, read, if_neg e]

/-- The first entry of a canonical memory is seen by reading, so a memory that reads alike cannot begin above it. -/
theorem not_forall_gt_of_read_eq {c : Host.Cell} {m m' : Memory} (h : wf (c :: m))
    (alike : ∀ a, read (c :: m) a = m'.read a) : ¬ ∀ d ∈ m', c.1 < d.1 := by
  intro above
  refine head_ne_unlisted_of_wf h ?_
  rw [← read_cons_self c m, alike, read_of_forall_gt above]

/-- Canonical memories that read alike begin with the same entry. -/
theorem head_eq_of_read_eq {c d : Host.Cell} {m m' : Memory} (h : wf (c :: m)) (h' : wf (d :: m'))
    (alike : ∀ a, read (c :: m) a = read (d :: m') a) : c = d := by
  have notBelow : ¬ c.1 < d.1 := fun lt => not_forall_gt_of_read_eq h alike
    (List.forall_mem_cons.mpr ⟨lt, fun e he => lt.trans (head_lt_of_wf h' e he)⟩)
  have notAbove : ¬ d.1 < c.1 := fun lt => not_forall_gt_of_read_eq h' (fun a => (alike a).symm)
    (List.forall_mem_cons.mpr ⟨lt, fun e he => lt.trans (head_lt_of_wf h e he)⟩)
  have address : c.1 = d.1 := by omega
  have byte : c.2 = d.2 := by
    rw [← read_cons_self c m, alike, address, read_cons_self]
  exact Prod.ext address byte

/-- The canonical form is determined by what it reads as. -/
theorem eq_of_read_eq {m m' : Memory} (h : m.wf) (h' : m'.wf) (alike : ∀ a, m.read a = m'.read a) : m = m' := by
  induction m generalizing m' with
  | nil =>
    cases m' with
    | nil => rfl
    | cons d m' => exact absurd (by simp) (not_forall_gt_of_read_eq h' fun a => (alike a).symm)
  | cons c m ih =>
    cases m' with
    | nil => exact absurd (by simp) (not_forall_gt_of_read_eq h alike)
    | cons d m' =>
      obtain rfl := head_eq_of_read_eq h h' alike
      have tails : m = m' := ih (wf_tail h) (wf_tail h') fun a => by
        rw [read_tail_of_wf h, read_tail_of_wf h', alike]
      rw [tails]

end Memory

/-- Settles O53, by induction on the two lists: both begin with the same entry, and without it they still read alike. -/
theorem canonicalMemoriesThatReadAlikeAreEqual : Obligations.CanonicalMemoriesThatReadAlikeAreEqual :=
  fun _ _ => Memory.eq_of_read_eq

/-! ## A store over the next instruction (R62) -/

/-- `Fx55` with its range inside memory completes (R177). -/
theorem exec_ldMemIVx_eq_next {x : RegIx} {s : State} (inRange : s.i.toNat + x.val ≤ 0xFFF) :
    exec (.ldMemIVx x) s = .next ((s.writeBytes s.dataAddress (s.regBlock x)).advance 2) :=
  accessing_eq_next_iff.mpr ⟨.inr (by simp only [State.dataAddress]; omega), rfl⟩

/-- After a store of the register block the byte at offset `r` is `V[r]` (R177). -/
theorem readByte_writeBytes_regBlock {x r : RegIx} {s : State} (canonical : s.mem.wf)
    (inRange : s.i.toNat + x.val ≤ 0xFFF) (inBlock : r.val ≤ x.val) :
    (s.writeBytes s.dataAddress (s.regBlock x)).readByte (s.dataAddress + r.val) = s.reg r := by
  have listed : r.val < (s.regBlock x).length := by rw [length_regBlock]; omega
  have fits : s.dataAddress + (s.regBlock x).length ≤ 0x1000 := by
    rw [length_regBlock, State.dataAddress]; omega
  rw [State.readByte_writeBytes_inside s canonical fits r.val listed, getElem_regBlock]

/-- Settles O54: the new `PC` is the address in `I`, where the block begins with `V[0]`, `V[1]`. -/
theorem storeIsSeenByTheNextFetch : Obligations.StoreIsSeenByTheNextFetch := by
  intro s x canonical twoBytes atNext inRange
  refine ⟨_, exec_ldMemIVx_eq_next inRange, ?_⟩
  have high : (s.writeBytes s.dataAddress (s.regBlock x)).readByte s.dataAddress = s.reg 0 :=
    readByte_writeBytes_regBlock (r := 0) canonical inRange (Nat.zero_le _)
  have low : (s.writeBytes s.dataAddress (s.regBlock x)).readByte (s.dataAddress + 1) = s.reg 1 :=
    readByte_writeBytes_regBlock (r := 1) canonical inRange twoBytes
  have newPc : (s.pc + 2).toNat = s.dataAddress := congrArg BitVec.toNat atNext.symm
  rw [State.wordAtPc, toNat_wordOfBytes, State.readByte_advance, State.readByte_advance, State.advance_pc,
    State.writeBytes_pc, newPc, high, low]

/-! ## The first step after `Load` (R64, R243) -/

/-- A fetch from the entry point is in range and above the guarded region, whatever the parameters (R191, U1). -/
theorem fetch_of_pc_eq_entry {c : Config} {s : State} (entry : s.pc = 0x200) : fetch c s = .ok s.wordAtPc :=
  fetch_eq_ok_iff.mpr (by simp [entry, fetchAliasesFont])

/-- A step that fetches a word and decodes it is the execution and count of the instruction (R190). -/
theorem stepWith_eq_execAndCount {c : Config} {s : State} {w : Word} {i : Instr} (fetched : fetch c s = .ok w)
    (decoded : decode w = .ok i) : stepWith c s = execAndCount c i s := by
  unfold stepWith
  rw [fetched]
  dsimp only
  rw [decoded]

/-- After a `Load` the word at the entry point is made of the first two bytes of the image (R54, R64). -/
theorem wordAtPc_load_of_pc_eq_entry {s : State} {hi lo : Byte} {rest : List Byte} (canonical : s.mem.wf)
    (entry : s.pc = 0x200) (fits : (hi :: lo :: rest).length ≤ maxImage) :
    (s.load (hi :: lo :: rest)).wordAtPc = wordOfBytes hi lo := by
  have first : (s.load (hi :: lo :: rest)).readByte 0x200 = hi := State.readByte_load_inside s canonical fits 0 (by simp)
  have second : (s.load (hi :: lo :: rest)).readByte 0x201 = lo := State.readByte_load_inside s canonical fits 1 (by simp)
  rw [State.wordAtPc, State.load_pc, entry]
  exact congrArg₂ wordOfBytes first second

/-- Settles O56: the image's first word is fetched from the entry point, which no guard objects to. -/
theorem firstStepRunsTheFirstWordOfTheImage : Obligations.FirstStepRunsTheFirstWordOfTheImage := by
  intro c supplied drawn hi lo rest i short decoded
  have fits : (hi :: lo :: rest).length ≤ maxImage := by
    simp only [List.length_cons, maxImage]; omega
  refine ⟨_, if_pos fits, stepWith_eq_execAndCount (fetch_of_pc_eq_entry rfl) ?_⟩
  have word := wordAtPc_load_of_pc_eq_entry (s := State.constructed supplied drawn) Memory.wf_nil rfl fits
  exact (congrArg decode (word.trans (wordOfBytes_eq hi lo))).trans decoded

end Sys2Proof.Machine

namespace Sys2Proof

/-! ## The formats as numbers (R72, R83) -/

/-- A field of `m` bits placed `k` bits up shares no bit with a word whose bits are 0 there. -/
theorem and_eq_zero_of_slot {a b : Word} {k m v : Nat} (free : a.toNat / 2 ^ k % 2 ^ m = 0) (placed : b.toNat = v * 2 ^ k)
    (fits : v < 2 ^ m) : a &&& b = 0 := by
  refine BitVec.eq_of_toNat_eq (Nat.eq_of_testBit_eq fun j => ?_)
  rw [BitVec.toNat_and, Nat.testBit_and, placed, Nat.testBit_mul_two_pow]
  obtain below | inside | above : j < k ∨ (k ≤ j ∧ j - k < m) ∨ (k ≤ j ∧ m ≤ j - k) := by omega
  · simp [Nat.not_le.mpr below]
  · have clear : a.toNat.testBit j = false := by
      simpa [Nat.testBit_mod_two_pow, Nat.testBit_div_two_pow, inside] using congrArg (Nat.testBit · (j - k)) free
    simp [clear]
  · simp [Nat.testBit_lt_two_pow (fits.trans_le (Nat.pow_le_pow_right Nat.two_pos above.2))]

/-- OR-ing a field into bits that are still 0 adds it. -/
theorem toNat_or_slot {a b : Word} (k m : Nat) {v : Nat} (free : a.toNat / 2 ^ k % 2 ^ m = 0) (placed : b.toNat = v * 2 ^ k)
    (fits : v < 2 ^ m) : (a ||| b).toNat = a.toNat + b.toNat := by
  have disjoint := and_eq_zero_of_slot free placed fits
  rw [← BitVec.add_eq_or_of_and_eq_zero a b disjoint, BitVec.toNat_add_of_and_eq_zero disjoint]

theorem toNat_encodeA {base : Word} (free : base.toNat % 4096 = 0) {addr : Nat} (fits : addr < 4096) :
    (encodeA base addr).toNat = base.toNat + addr := by
  have placed : ((BitVec.ofNat 12 addr).setWidth 16 : Word).toNat = addr := by
    simp only [BitVec.toNat_setWidth, BitVec.toNat_ofNat]; omega
  rw [encodeA, toNat_or_slot (v := addr) 0 12 (by omega) (by omega) (by omega), placed]

theorem toNat_encodeX {base : Word} (free : base.toNat / 256 % 16 = 0) (x : RegIx) :
    (encodeX base x).toNat = base.toNat + x.val * 256 := by
  have placed := toNat_placeX x
  rw [encodeX, toNat_or_slot (v := x.val) 8 4 (by omega) (by omega) (by omega), placed]

theorem toNat_encodeXK {base : Word} (free : base.toNat % 4096 = 0) (x : RegIx) (kk : Byte) :
    (encodeXK base x kk).toNat = base.toNat + x.val * 256 + kk.toNat := by
  have placed := toNat_placeKk kk
  have withX := toNat_encodeX (base := base) (by omega) x
  rw [encodeXK, ← encodeX, toNat_or_slot (v := kk.toNat) 0 8 (by omega) (by omega) (by omega), withX, placed]

theorem toNat_encodeXY {base : Word} (free : base.toNat / 16 % 256 = 0) (x y : RegIx) :
    (encodeXY base x y).toNat = base.toNat + x.val * 256 + y.val * 16 := by
  have placed := toNat_placeY y
  have withX := toNat_encodeX (base := base) (by omega) x
  rw [encodeXY, ← encodeX, toNat_or_slot (v := y.val) 4 4 (by omega) (by omega) (by omega), withX, placed]

theorem toNat_encode_drwVxVyN (x y : RegIx) {n : Nat} (fits : n < 16) :
    (encode (.drwVxVyN x y n)).toNat = 0xD000 + x.val * 256 + y.val * 16 + n := by
  have placed : ((BitVec.ofNat 4 n).setWidth 16 : Word).toNat = n := by
    simp only [BitVec.toNat_setWidth, BitVec.toNat_ofNat]; omega
  have withXY : (encodeXY 0xD000 x y).toNat = 0xD000 + x.val * 256 + y.val * 16 := toNat_encodeXY (by decide) x y
  rw [encode, toNat_or_slot (v := n) 0 4 (by omega) (by omega) (by omega), withXY, placed]

/-! ## The fields of an encoded word -/

theorem fields_encodeA {base : Word} (free : base.toNat % 4096 = 0) {addr : Nat} (fits : addr < 4096) :
    famField (encodeA base addr) = base.toNat / 4096 ∧ addrField (encodeA base addr) = addr := by
  have word := toNat_encodeA free fits
  exact ⟨by rw [famField_eq]; omega, by rw [addrField_eq]; omega⟩

theorem fields_encodeX {base : Word} (free : base.toNat / 256 % 16 = 0) (x : RegIx) :
    famField (encodeX base x) = base.toNat / 4096 ∧ xField (encodeX base x) = x ∧
      kkField (encodeX base x) = BitVec.ofNat 8 base.toNat := by
  have word := toNat_encodeX free x
  exact ⟨by rw [famField_eq]; omega, Fin.ext (by rw [val_xField]; omega),
    BitVec.eq_of_toNat_eq (by rw [toNat_kkField, BitVec.toNat_ofNat]; omega)⟩

theorem fields_encodeXK {base : Word} (free : base.toNat % 4096 = 0) (x : RegIx) (kk : Byte) :
    famField (encodeXK base x kk) = base.toNat / 4096 ∧ xField (encodeXK base x kk) = x ∧
      kkField (encodeXK base x kk) = kk := by
  have word := toNat_encodeXK free x kk
  exact ⟨by rw [famField_eq]; omega, Fin.ext (by rw [val_xField]; omega),
    BitVec.eq_of_toNat_eq (by rw [toNat_kkField]; omega)⟩

theorem fields_encodeXY {base : Word} (free : base.toNat / 16 % 256 = 0) (x y : RegIx) :
    famField (encodeXY base x y) = base.toNat / 4096 ∧ xField (encodeXY base x y) = x ∧
      yField (encodeXY base x y) = y ∧ nField (encodeXY base x y) = base.toNat % 16 := by
  have word := toNat_encodeXY free x y
  exact ⟨by rw [famField_eq]; omega, Fin.ext (by rw [val_xField]; omega), Fin.ext (by rw [val_yField]; omega),
    by rw [nField_eq]; omega⟩

theorem fields_encode_drwVxVyN (x y : RegIx) {n : Nat} (fits : n < 16) :
    famField (encode (.drwVxVyN x y n)) = 0xD ∧ xField (encode (.drwVxVyN x y n)) = x ∧
      yField (encode (.drwVxVyN x y n)) = y ∧ nField (encode (.drwVxVyN x y n)) = n := by
  have word := toNat_encode_drwVxVyN x y fits
  exact ⟨by rw [famField_eq]; omega, Fin.ext (by rw [val_xField]; omega), Fin.ext (by rw [val_yField]; omega),
    by rw [nField_eq]; omega⟩

/-! ## Decoding what was encoded -/

/-- The decoder undoes the encoder: it dispatches on the fixed fields and reads back the operands (R82, R83). -/
theorem decode_encode {i : Instr} (wf : i.wellFormed = true) : decode (encode i) = .ok i := by
  cases i with
  | cls | ret => rfl
  | jpAddr addr | callAddr addr | ldIAddr addr | jpV0Addr addr =>
    have fits : addr < 4096 := of_decide_eq_true wf
    simp [encode, decode, fields_encodeA, fits]
  | seVxKk x kk | sneVxKk x kk | ldVxKk x kk | addVxKk x kk | rndVxKk x kk =>
    simp [encode, decode, fields_encodeXK]
  | seVxVy x y | sneVxVy x y =>
    simp [encode, decode, fields_encodeXY]
  | ldVxVy x y | orVxVy x y | andVxVy x y | xorVxVy x y | addVxVy x y | subVxVy x y | shrVx x y | subnVxVy x y | shlVx x y =>
    simp [encode, decode, decodeFamily8, fields_encodeXY]
  | drwVxVyN x y n =>
    have fits : n < 16 := of_decide_eq_true wf
    simp [decode, fields_encode_drwVxVyN, fits]
  | skpVx x | sknpVx x =>
    simp [encode, decode, decodeFamilyE, fields_encodeX]
  | ldVxDt x | ldVxK x | ldDtVx x | ldStVx x | addIVx x | ldFVx x | ldBVx x | ldMemIVx x | ldVxMemI x =>
    simp [encode, decode, decodeFamilyF, fields_encodeX]

/-- Settles O2, by the fields of the encoded word, format by format. -/
theorem decodeOfEncodeIsTheInstruction : Obligations.DecodeOfEncodeIsTheInstruction := fun _ => decode_encode

/-! ## A word from its fields -/

section
variable {w base : Word}

theorem addrField_lt (w : Word) : addrField w < 4096 := by rw [addrField_eq]; omega

theorem nField_lt (w : Word) : nField w < 16 := by rw [nField_eq]; omega

theorem encodeA_fields (h : base.toNat = famField w * 4096) : encodeA base (addrField w) = w := by
  have word := toNat_encodeA (base := base) (by omega) (addrField_lt w)
  rw [famField_eq] at h
  have operand := addrField_eq w
  exact BitVec.eq_of_toNat_eq (by omega)

theorem encodeXK_fields (h : base.toNat = famField w * 4096) : encodeXK base (xField w) (kkField w) = w := by
  have word := toNat_encodeXK (base := base) (by omega) (xField w) (kkField w)
  rw [famField_eq] at h
  rw [val_xField, toNat_kkField] at word
  exact BitVec.eq_of_toNat_eq (by omega)

theorem encodeXY_fields (h : base.toNat = famField w * 4096 + nField w) : encodeXY base (xField w) (yField w) = w := by
  have low := nField_lt w
  have word := toNat_encodeXY (base := base) (by omega) (xField w) (yField w)
  rw [famField_eq, nField_eq] at h
  rw [val_xField, val_yField] at word
  exact BitVec.eq_of_toNat_eq (by omega)

theorem encodeX_fields (h : base.toNat = famField w * 4096 + (kkField w).toNat) : encodeX base (xField w) = w := by
  have low := (kkField w).isLt
  have word := toNat_encodeX (base := base) (by omega) (xField w)
  rw [famField_eq, toNat_kkField] at h
  rw [val_xField] at word
  exact BitVec.eq_of_toNat_eq (by omega)

theorem encode_drwVxVyN_fields (h : famField w = 0xD) : encode (.drwVxVyN (xField w) (yField w) (nField w)) = w := by
  have word := toNat_encode_drwVxVyN (xField w) (yField w) (nField_lt w)
  rw [famField_eq] at h
  have rows := nField_eq w
  rw [val_xField, val_yField] at word
  exact BitVec.eq_of_toNat_eq (by omega)

/-! ## Encoding what was decoded -/

variable {i : Instr}

theorem encode_of_decodeFamily0 (h : decodeFamily0 w = .ok i) : i.wellFormed = true ∧ encode i = w := by
  unfold decodeFamily0 at h
  split_ifs at h with isCls isRet
  · obtain rfl := Except.ok.inj h; exact ⟨rfl, isCls.symm⟩
  · obtain rfl := Except.ok.inj h; exact ⟨rfl, isRet.symm⟩

theorem encode_of_decodeFamily8 (fam : famField w = 0x8) (h : decodeFamily8 w = .ok i) :
    i.wellFormed = true ∧ encode i = w := by
  unfold decodeFamily8 at h
  split at h
  case h_10 => cases h
  all_goals
    next n =>
      obtain rfl := Except.ok.inj h
      exact ⟨rfl, encodeXY_fields (by rw [fam, n]; rfl)⟩

theorem encode_of_decodeFamilyE (fam : famField w = 0xE) (h : decodeFamilyE w = .ok i) :
    i.wellFormed = true ∧ encode i = w := by
  unfold decodeFamilyE at h
  split_ifs at h
  all_goals
    next kk =>
      obtain rfl := Except.ok.inj h
      exact ⟨rfl, encodeX_fields (by rw [fam, kk]; rfl)⟩

theorem encode_of_decodeFamilyF (fam : famField w = 0xF) (h : decodeFamilyF w = .ok i) :
    i.wellFormed = true ∧ encode i = w := by
  unfold decodeFamilyF at h
  dsimp only at h
  split_ifs at h
  all_goals
    next kk =>
      obtain rfl := Except.ok.inj h
      exact ⟨rfl, encodeX_fields (by rw [fam, kk]; rfl)⟩

/-- The encoder undoes the decoder, whose operands fit their fields (R71, R83). -/
theorem encode_of_decode (h : decode w = .ok i) : i.wellFormed = true ∧ encode i = w := by
  unfold decode at h
  split at h
  case h_1 => exact encode_of_decodeFamily0 h
  case h_9 fam => exact encode_of_decodeFamily8 fam h
  case h_15 fam => exact encode_of_decodeFamilyE fam h
  case h_16 fam => exact encode_of_decodeFamilyF fam h
  case h_17 => cases h
  case h_6 fam | h_10 fam =>
    split_ifs at h with n
    obtain rfl := Except.ok.inj h
    exact ⟨rfl, encodeXY_fields (by rw [fam, n]; rfl)⟩
  case h_14 fam =>
    obtain rfl := Except.ok.inj h
    exact ⟨decide_eq_true (nField_lt w), encode_drwVxVyN_fields fam⟩
  case h_2 fam | h_3 fam | h_11 fam | h_12 fam =>
    obtain rfl := Except.ok.inj h
    exact ⟨decide_eq_true (addrField_lt w), encodeA_fields (by rw [fam]; rfl)⟩
  all_goals
    next fam =>
      obtain rfl := Except.ok.inj h
      exact ⟨rfl, encodeXK_fields (by rw [fam]; rfl)⟩

/-- The decoder's whole meaning: a word decodes to the one well-formed instruction that it encodes, and to nothing else. -/
theorem decode_eq_ok_iff : decode w = .ok i ↔ i.wellFormed = true ∧ encode i = w :=
  ⟨encode_of_decode, fun ⟨wf, word⟩ => word ▸ decode_encode wf⟩

end

/-- Settles O3, by building the word again from the fields the decoder read, format by format. -/
theorem encodeOfDecodedWordIsTheWord : Obligations.EncodeOfDecodedWordIsTheWord := fun _ _ => decode_eq_ok_iff.mp

/-! ## The words that decode to nothing (R76) -/

/-- A test for one instruction before the remaining ones fails exactly where the test and they do. -/
theorem ite_ok_eq_error_iff {c : Prop} [Decidable c] {i : Instr} {rest : Except DecodeError Instr} {e : DecodeError} :
    (if c then .ok i else rest) = .error e ↔ ¬ c ∧ rest = .error e := by
  by_cases h : c <;> simp [h]

section
variable (w : Word)

theorem decodeFamily0_eq_error_iff :
    decodeFamily0 w = .error (.unknownOpcode w) ↔ w.toNat ≠ 0x00E0 ∧ w.toNat ≠ 0x00EE := by
  simp [decodeFamily0, ite_ok_eq_error_iff, ← BitVec.toNat_inj]

theorem decodeFamily8_eq_error_iff :
    decodeFamily8 w = .error (.unknownOpcode w) ↔ w.toNat % 16 ∈ [0x8, 0x9, 0xA, 0xB, 0xC, 0xD, 0xF] := by
  have bound : w.toNat % 16 < 16 := Nat.mod_lt _ (by decide)
  unfold decodeFamily8
  rw [nField_eq]
  interval_cases w.toNat % 16 <;> simp

theorem decodeFamilyE_eq_error_iff :
    decodeFamilyE w = .error (.unknownOpcode w) ↔ w.toNat % 256 ∉ [0x9E, 0xA1] := by
  simp [decodeFamilyE, ite_ok_eq_error_iff, ← BitVec.toNat_inj, toNat_kkField]

theorem decodeFamilyF_eq_error_iff :
    decodeFamilyF w = .error (.unknownOpcode w) ↔
      w.toNat % 256 ∉ [0x07, 0x0A, 0x15, 0x18, 0x1E, 0x29, 0x33, 0x55, 0x65] := by
  simp [decodeFamilyF, ite_ok_eq_error_iff, ← BitVec.toNat_inj, toNat_kkField]

end

/-- Settles O5, family by family. -/
theorem unknownWordsAreTheListedOnes : Obligations.UnknownWordsAreTheListedOnes := by
  intro w
  have bound : w.toNat / 4096 < 16 := by omega
  unfold decode
  rw [famField_eq, nField_eq]
  interval_cases w.toNat / 4096 <;>
    simp [decodeFamily0_eq_error_iff, decodeFamily8_eq_error_iff, decodeFamilyE_eq_error_iff, decodeFamilyF_eq_error_iff]

/-! ## The decoder against the opcode map (R74, R75) -/

section
open Laws EncodingMatchesItsRow

/-- Every encoded word stands in its instruction's row. -/
theorem encode_matchesWord (i : Instr) : i.pattern.matchesWord (encode i) = true := by
  change Statement i
  cases i
  exacts [cls, ret, jpAddr _, callAddr _, seVxKk _ _, sneVxKk _ _, seVxVy _ _, ldVxKk _ _, addVxKk _ _, ldVxVy _ _,
    orVxVy _ _, andVxVy _ _, xorVxVy _ _, addVxVy _ _, subVxVy _ _, shrVx _ _, subnVxVy _ _, shlVx _ _, sneVxVy _ _,
    ldIAddr _, jpV0Addr _, rndVxKk _ _, drwVxVyN _ _ _, skpVx _, sknpVx _, ldVxDt _, ldVxK _, ldDtVx _, ldStVx _,
    addIVx _, ldFVx _, ldBVx _, ldMemIVx _, ldVxMemI _]

end

theorem pattern_mem_opcodeMap (i : Instr) : i.pattern ∈ opcodeMap := by
  cases i <;> simp [Instr.pattern, opcodeMap]

/-- A word of a row agrees with the row's bits wherever the row fixes them. -/
theorem Pattern.and_eq_of_matchesWord {p : Pattern} {w m : Word} (h : p.matchesWord w = true) (fixed : p.mask &&& m = m) :
    w &&& m = p.bits &&& m := by
  have row : w &&& p.mask = p.bits := of_decide_eq_true h
  rw [← row, BitVec.and_assoc, fixed]

/-- Two rows that agree on the bits both fix are one row. -/
theorem opcodeMap_separated : ∀ p ∈ opcodeMap, ∀ q ∈ opcodeMap, p.bits &&& q.mask = q.bits &&& p.mask → p = q := by
  decide

theorem eq_of_matchesWord {w : Word} {p q : Pattern} (hp : p ∈ opcodeMap) (hq : q ∈ opcodeMap)
    (pRow : p.matchesWord w = true) (qRow : q.matchesWord w = true) : p = q := by
  refine opcodeMap_separated p hp q hq ?_
  rw [← of_decide_eq_true pRow, ← of_decide_eq_true qRow, BitVec.and_assoc, BitVec.and_assoc, BitVec.and_comm p.mask]

/-- Every row fixes the family nibble, and in each family the bits on which R76 says which words are unknown. -/
theorem opcodeMap_fixes : ∀ p ∈ opcodeMap,
    p.mask &&& 0xF000 = 0xF000 ∧
    (p.bits.toNat / 4096 = 0 → p.mask &&& BitVec.allOnes 16 = BitVec.allOnes 16) ∧
    (p.bits.toNat / 4096 ∈ [5, 8, 9] → p.mask &&& 0xF = 0xF) ∧
    (p.bits.toNat / 4096 ∈ [0xE, 0xF] → p.mask &&& 0xFF = 0xFF) := by
  decide

theorem decode_bits_ne_error : ∀ p ∈ opcodeMap, decode p.bits ≠ .error (.unknownOpcode p.bits) := by
  decide

theorem famField_and_familyMask (w : Word) : famField (w &&& 0xF000) = famField w := by
  have nibble : w.toNat / 2 ^ 12 < 2 ^ 4 := by omega
  rw [famField_eq, famField_eq, BitVec.toNat_and, Nat.and_div_two_pow (n := 12)]
  exact Nat.and_two_pow_sub_one_of_lt_two_pow nibble

/-- A word of a row stands in R76's table if the row's own bits do, as it shares the bits the table looks at. -/
theorem decode_bits_eq_error {w : Word} {p : Pattern} (mem : p ∈ opcodeMap) (row : p.matchesWord w = true)
    (unknown : decode w = .error (.unknownOpcode w)) : decode p.bits = .error (.unknownOpcode p.bits) := by
  obtain ⟨family, whole, low4, low8⟩ := opcodeMap_fixes p mem
  have sameFamily : w.toNat / 4096 = p.bits.toNat / 4096 := by
    rw [← famField_eq, ← famField_eq, ← famField_and_familyMask w, p.and_eq_of_matchesWord row family,
      famField_and_familyMask]
  have sameWord (fam : p.bits.toNat / 4096 = 0) : w = p.bits := by
    have shared := p.and_eq_of_matchesWord row (whole fam)
    rwa [BitVec.and_allOnes, BitVec.and_allOnes] at shared
  have sameNibble (fam : p.bits.toNat / 4096 ∈ [5, 8, 9]) : w.toNat % 16 = p.bits.toNat % 16 := by
    rw [← nField_eq, ← nField_eq]
    exact congrArg BitVec.toNat (p.and_eq_of_matchesWord row (low4 fam))
  have sameByte (fam : p.bits.toNat / 4096 ∈ [0xE, 0xF]) : w.toNat % 256 = p.bits.toNat % 256 := by
    rw [← toNat_kkField, ← toNat_kkField]
    exact congrArg (fun v : Word => (v.setWidth 8).toNat) (p.and_eq_of_matchesWord row (low8 fam))
  rw [unknownWordsAreTheListedOnes w, sameFamily] at unknown
  refine (unknownWordsAreTheListedOnes p.bits).mpr ?_
  exact unknown.imp (fun ⟨fam, rest⟩ => ⟨fam, sameWord fam ▸ rest⟩) <|
    .imp (fun ⟨fam, rest⟩ => ⟨fam, sameNibble (by simp [fam]) ▸ rest⟩) <|
    .imp (fun ⟨fam, rest⟩ => ⟨fam, sameNibble (by simp [fam]) ▸ rest⟩) <|
    .imp (fun ⟨fam, rest⟩ => ⟨fam, sameNibble (by simp [fam]) ▸ rest⟩) <|
    .imp (fun ⟨fam, rest⟩ => ⟨fam, sameByte (by simp [fam]) ▸ rest⟩)
      (fun ⟨fam, rest⟩ => ⟨fam, sameByte (by simp [fam]) ▸ rest⟩)

/-- Settles O4: a decoded word is its instruction's encoding, which stands in the instruction's row; a word of a row would, if it
decoded to nothing, leave the row's own bits without a meaning; and distinct rows differ on a bit that both fix. -/
theorem decodeFollowsTheOpcodeMap : Obligations.DecodeFollowsTheOpcodeMap := by
  refine ⟨fun w i decoded => ?_, fun w e undecoded => ?_, fun w p q => eq_of_matchesWord⟩
  · obtain ⟨-, rfl⟩ := decode_eq_ok_iff.mp decoded
    exact ⟨pattern_mem_opcodeMap i, encode_matchesWord i⟩
  · obtain rfl := decode_error undecoded
    refine ⟨rfl, fun p mem => Bool.eq_false_iff.mpr fun row => ?_⟩
    exact decode_bits_ne_error p mem (decode_bits_eq_error mem row undecoded)

/-- Settles O1, by evaluation of the decoder on the words of R84 and one word of every other family. -/
theorem decodesWordsWrittenFromTheSpec : Obligations.DecodesWordsWrittenFromTheSpec := by
  unfold Obligations.DecodesWordsWrittenFromTheSpec
  decide

end Sys2Proof

namespace Sys2Proof.Machine

/-! ## Words of instructions -/

/-- A well-formed instruction is the meaning of exactly one word, its encoding. -/
theorem encodedAs_of_encode {i : Instr} {k : Nat} (wf : i.wellFormed = true) (word : (encode i).toNat = k) :
    EncodedAs i k := by
  intro w
  rw [decode_eq_ok_iff, and_iff_right wf, ← word, ← BitVec.toNat_inj, eq_comm]

/-! ## The stack (R24, R25) -/

theorem State.topSlot_push (s : State) (w : Word) (room : s.sp.val < 16) (h : 0 < (s.push w room).sp.val) :
    (s.push w room).topSlot h = w := by
  simp [State.topSlot, State.slot_push]

/-! ## Call and return (R101, R103, R108) -/

theorem execRet_of_nonempty {s : State} (h : 0 < s.sp.val) :
    execRet s = .next ((s.pop h).setPc (s.topSlot h + 2)) :=
  execRet_eq_next_iff.mpr ⟨h, rfl⟩

theorem execCallAddr_of_room {s : State} (addr : Nat) (h : s.sp.val < 16) :
    execCallAddr addr s = .next ((s.push s.pc h).setPc (addrOperand addr)) :=
  execCallAddr_eq_next_iff.mpr ⟨h, rfl⟩

theorem execRet_of_empty {s : State} (h : s.sp.val = 0) : execRet s = .fault .stackUnderflow :=
  dif_neg (by omega)

theorem execCallAddr_of_full {s : State} (addr : Nat) (h : s.sp.val = 16) :
    execCallAddr addr s = .fault .stackOverflow :=
  dif_neg (by omega)

/-- Settles O29: the return reads the slot that the call wrote, and the call wrote no slot below. -/
theorem callThenReturnGoesOnAfterTheCall : Obligations.CallThenReturnGoesOnAfterTheCall := by
  intro s addr room
  have nonempty : 0 < (s.push s.pc room).sp.val := Nat.succ_pos _
  refine ⟨_, _, execCallAddr_of_room addr room, execRet_of_nonempty nonempty, ?_, rfl, fun k below => ?_⟩
  · exact congrArg (· + 2) (s.topSlot_push s.pc room nonempty)
  · simp [State.slot_push, below.ne]

/-- Settles O25: the two branches of the handler. -/
theorem returnPopsAndAddsTwo : Obligations.ReturnPopsAndAddsTwo := by
  refine ⟨fun _ => execRet_of_empty, fun s nonempty => ?_⟩
  have ran : exec .ret s = .next _ := execRet_of_nonempty (Nat.pos_of_ne_zero nonempty)
  exact ⟨_, ran, rfl, BitVec.toNat_add _ _, exec_frame ran⟩

/-- Settles O28: the two branches of the handler. The frame of a push names the slot by its number. -/
theorem callPushesItsOwnAddress : Obligations.CallPushesItsOwnAddress := by
  refine ⟨fun _ => execCallAddr_of_full, fun s addr fits room => ?_⟩
  refine ⟨_, execCallAddr_of_room addr room, ?_, rfl, toNat_addrOperand fits,
    (frame_push s s.pc room).trans (frame_pc _ _) ?_⟩
  · simp [State.slot_push]
  · rintro c ((rfl | ⟨k, rfl, top⟩) | rfl)
    · simp
    · simp [Fin.ext_iff, top]
    · simp

/-! ## Clear and jump (R100, R102) -/

/-- Settles O24: the new display reads 0 in every cell, and the frame is that of the instruction. -/
theorem clearZeroesTheDisplay : Obligations.ClearZeroesTheDisplay :=
  ⟨encodedAs_of_encode rfl rfl, fun _ => ⟨_, rfl, Display.cell_clear, rfl, exec_frame (i := .cls) rfl⟩⟩

theorem State.setPc_self (s : State) : s.setPc s.pc = s := rfl

/-- Settles O26: a jump to its own address sets `PC` to what it is. -/
theorem jumpLoadsThePc : Obligations.JumpLoadsThePc := by
  intro addr fits
  have loaded := toNat_addrOperand fits
  refine ⟨encodedAs_of_encode (decide_eq_true fits) (toNat_encodeA (by decide) fits),
    fun s => ⟨_, rfl, loaded, frame_pc s _, fun own => ?_⟩⟩
  rw [BitVec.eq_of_toNat_eq (loaded.trans own.symm), State.setPc_self]

/-! ## Skips (R104 to R107) -/

theorem State.toNat_pc_skipIf (s : State) (cond : Bool) :
    (s.skipIf cond).pc.toNat = (s.pc.toNat + if cond then 4 else 2) % 2 ^ 16 := by
  cases cond <;> exact BitVec.toNat_add _ _

theorem State.toNat_pc_skipIf_beq (s : State) (a b : Byte) :
    (s.skipIf (a == b)).pc.toNat = (s.pc.toNat + if a.toNat = b.toNat then 4 else 2) % 2 ^ 16 := by
  simp only [State.toNat_pc_skipIf, beq_iff_eq, BitVec.toNat_inj]

theorem State.toNat_pc_skipIf_bne (s : State) (a b : Byte) :
    (s.skipIf (a != b)).pc.toNat = (s.pc.toNat + if a.toNat = b.toNat then 2 else 4) % 2 ^ 16 := by
  simp only [State.toNat_pc_skipIf, bne_iff_ne, BitVec.toNat_inj, ite_not]

/-- Settles O30: both are conditional skips, on the register and the immediate. -/
theorem immediateSkipsCompareTheRegister : Obligations.ImmediateSkipsCompareTheRegister :=
  fun x kk => ⟨encodedAs_of_encode rfl (toNat_encodeXK (by decide) x kk),
    encodedAs_of_encode rfl (toNat_encodeXK (by decide) x kk),
    fun s => ⟨⟨_, rfl, s.toNat_pc_skipIf_beq (s.reg x) kk, frame_pc s _⟩,
      ⟨_, rfl, s.toNat_pc_skipIf_bne (s.reg x) kk, frame_pc s _⟩⟩⟩

/-- Settles O31: both are conditional skips, on the two registers. -/
theorem registerSkipsCompareTheRegisters : Obligations.RegisterSkipsCompareTheRegisters :=
  fun s x y => ⟨⟨_, rfl, s.toNat_pc_skipIf_beq (s.reg x) (s.reg y), frame_pc s _⟩,
    ⟨_, rfl, s.toNat_pc_skipIf_bne (s.reg x) (s.reg y), frame_pc s _⟩⟩

end Sys2Proof.Machine

namespace Sys2Proof.Machine

/-! ## The results of the arithmetic and logic operations (R120 to R132) -/

/-- What an operation without a flag does, the result given as a byte. -/
theorem plainResult_effect (s : State) (x : RegIx) (b : Byte) :
    ∃ t, plainResult s x b = .next t ∧ t.reg x = b ∧ t.pc = s.pc + 2 ∧ Frame (fun c => c ∈ [Component.reg x, .pc]) s t :=
  ⟨_, rfl, s.reg_setReg_same x b, rfl, frame_plain s x b⟩

/-- What an operation without a flag does, the result given bit by bit. -/
theorem plainResult_effect_bits {s : State} {x : RegIx} {b : Byte} {bit : Nat → Bool} (bits : ∀ k, b.getLsbD k = bit k) :
    ∃ t, plainResult s x b = .next t ∧ (∀ k < 8, (t.reg x).getLsbD k = bit k) ∧ t.pc = s.pc + 2 ∧
      Frame (fun c => c ∈ [Component.reg x, .pc]) s t := by
  obtain ⟨t, ran, written, rest⟩ := plainResult_effect s x b
  exact ⟨t, ran, fun k _ => written ▸ bits k, rest⟩

/-- What an operation with a flag does, result and flag given as numbers: the flag is written last, so it stands in `V[15]` for
every `x`, and the result stands in `V[x]` for every other `x` (R132). -/
theorem flaggedResult_effect {s : State} {x : RegIx} {b : Byte} {f : Bool} {value flag : Nat} (hb : b.toNat = value)
    (hf : (flagByte f).toNat = flag) :
    ∃ t, flaggedResult s x b f = .next t ∧ (x ≠ 15 → (t.reg x).toNat = value) ∧ (t.reg 15).toNat = flag ∧
      t.pc = s.pc + 2 ∧ Frame (fun c => c ∈ [Component.reg x, .reg 15, .pc]) s t := by
  refine ⟨_, rfl, fun other => ?_, ?_, rfl, frame_flagged s x b f⟩
  · rw [State.reg_advance, State.reg_setRegThenFlag_dest s other, hb]
  · rw [State.reg_advance, State.reg_setRegThenFlag_flag, hf]

/-- A difference modulo 256, written without a negative number (R131). -/
theorem toNat_byte_sub (a b : Byte) : (a - b).toNat = (a.toNat + 256 - b.toNat) % 256 := by
  rw [BitVec.toNat_sub]; omega

theorem toNat_byte_shiftRight_one (a : Byte) : (a >>> 1).toNat = a.toNat / 2 := by
  rw [BitVec.toNat_ushiftRight, Nat.shiftRight_eq_div_pow, pow_one]

theorem toNat_byte_shiftLeft_one (a : Byte) : (a <<< 1).toNat = 2 * a.toNat % 256 := by
  rw [BitVec.toNat_shiftLeft, Nat.shiftLeft_eq, pow_one, mul_comm]

/-- A flag that is a comparison, as carry and not-borrow are (R126, R127, R129). -/
theorem toNat_flagByte_decide (p : Prop) [Decidable p] : (flagByte (decide p)).toNat = if p then 1 else 0 := by
  simp only [toNat_flagByte, decide_eq_true_iff]

/-- A flag that is a bit of a byte, as the bits shifted out are (R128, R130). -/
theorem toNat_flagByte_getLsbD (a : Byte) (k : Nat) : (flagByte (a.getLsbD k)).toNat = a.toNat / 2 ^ k % 2 := by
  rw [toNat_flagByte, ← Nat.toNat_testBit, BitVec.testBit_toNat]
  cases a.getLsbD k <;> rfl

theorem toNat_flagByte_shiftedOutRight (a : Byte) : (flagByte (shiftedOutRight a)).toNat = a.toNat % 2 := by
  rw [shiftedOutRight, toNat_flagByte_getLsbD, pow_zero, Nat.div_one]

/-- A byte has no bit above bit 7. -/
theorem toNat_flagByte_shiftedOutLeft (a : Byte) : (flagByte (shiftedOutLeft a)).toNat = a.toNat / 128 := by
  rw [shiftedOutLeft, toNat_flagByte_getLsbD]; omega

/-- Settles O32: both write their result and no flag; the sum wraps as bytes do. -/
theorem immediateLoadAndAddWriteTheRegister : Obligations.ImmediateLoadAndAddWriteTheRegister := by
  refine fun x kk => ⟨encodedAs_of_encode rfl (toNat_encodeXK (by decide) x kk),
    encodedAs_of_encode rfl (toNat_encodeXK (by decide) x kk), fun s => ⟨plainResult_effect s x kk, ?_⟩⟩
  obtain ⟨t, ran, written, rest⟩ := plainResult_effect s x (s.reg x + kk)
  exact ⟨t, ran, by rw [written, BitVec.toNat_add], rest⟩

/-- Settles O33: all four write their result and no flag; the last three are the bitwise operations. -/
theorem moveAndLogicWriteTheRegisterAndNoFlag : Obligations.MoveAndLogicWriteTheRegisterAndNoFlag :=
  fun x y => ⟨encodedAs_of_encode rfl (toNat_encodeXY (by decide) x y),
    encodedAs_of_encode rfl (toNat_encodeXY (by decide) x y),
    encodedAs_of_encode rfl (toNat_encodeXY (by decide) x y),
    encodedAs_of_encode rfl (toNat_encodeXY (by decide) x y),
    fun s => ⟨plainResult_effect s x (s.reg y),
      plainResult_effect_bits fun _ => BitVec.getLsbD_or,
      plainResult_effect_bits fun _ => BitVec.getLsbD_and,
      plainResult_effect_bits fun _ => BitVec.getLsbD_xor⟩⟩

/-- Settles O34: the result is the sum of bytes, and the flag compares the sum of numbers with 255. -/
theorem addSetsTheCarryLast : Obligations.AddSetsTheCarryLast :=
  fun x y => ⟨encodedAs_of_encode rfl (toNat_encodeXY (by decide) x y),
    fun _ => flaggedResult_effect (BitVec.toNat_add _ _) (toNat_flagByte_decide _)⟩

/-- Settles O35: the result is the difference of bytes, and the flag compares the operands. -/
theorem subtractsSetNotBorrowLast : Obligations.SubtractsSetNotBorrowLast :=
  fun x y => ⟨encodedAs_of_encode rfl (toNat_encodeXY (by decide) x y),
    encodedAs_of_encode rfl (toNat_encodeXY (by decide) x y),
    fun s => ⟨flaggedResult_effect (toNat_byte_sub (s.reg x) (s.reg y)) (toNat_flagByte_decide _),
      flaggedResult_effect (toNat_byte_sub (s.reg y) (s.reg x)) (toNat_flagByte_decide _)⟩⟩

/-- Settles O36: the result is the half or the double of `V[x]`, and the flag is its bit 0 or its bit 7. -/
theorem shiftsSetTheBitShiftedOutLast : Obligations.ShiftsSetTheBitShiftedOutLast :=
  fun x y => ⟨encodedAs_of_encode rfl (toNat_encodeXY (by decide) x y),
    encodedAs_of_encode rfl (toNat_encodeXY (by decide) x y),
    fun s => ⟨flaggedResult_effect (toNat_byte_shiftRight_one (s.reg x)) (toNat_flagByte_shiftedOutRight (s.reg x)),
      flaggedResult_effect (toNat_byte_shiftLeft_one (s.reg x)) (toNat_flagByte_shiftedOutLeft (s.reg x))⟩⟩

end Sys2Proof.Machine

namespace Sys2Proof.Machine

/-! ## Draws (R142, R143) -/

theorem State.drawByte_of_cons {s : State} {r : Byte} {rest : List Byte} (supplied : s.drawQueue = r :: rest) :
    s.drawByte = r := by
  rw [State.drawByte, supplied]

/-- What `Cxkk` does on every state, the result given bit by bit. -/
theorem exec_rndVxKk_effect (s : State) (x : RegIx) (kk : Byte) :
    ∃ t, exec (.rndVxKk x kk) s = .next t ∧ (∀ k, (t.reg x).getLsbD k = (s.drawByte.getLsbD k && kk.getLsbD k)) ∧
      t.pc = s.pc + 2 ∧ t.drawQueue = s.drawQueue.tail ∧ t.drawCount = s.drawCount + 1 ∧
      Frame (fun c => c ∈ [Component.reg x, .pc, .draws]) s t := by
  refine ⟨_, rfl, fun k => ?_, rfl, rfl, rfl, exec_frame (i := .rndVxKk x kk) rfl⟩
  rw [State.reg_advance, State.reg_setReg_same, BitVec.getLsbD_and]

/-- What `Cxkk` does where the environment has supplied the next byte. -/
theorem exec_rndVxKk_of_supplied {s : State} {r : Byte} {rest : List Byte} (supplied : s.drawQueue = r :: rest)
    (x : RegIx) (kk : Byte) :
    ∃ t, exec (.rndVxKk x kk) s = .next t ∧ (∀ k, (t.reg x).getLsbD k = (r.getLsbD k && kk.getLsbD k)) ∧
      t.drawQueue = rest ∧ t.drawCount = s.drawCount + 1 := by
  obtain ⟨t, ran, bits, -, queue, count, -⟩ := exec_rndVxKk_effect s x kk
  rw [State.drawByte_of_cons supplied] at bits
  rw [supplied] at queue
  exact ⟨t, ran, bits, queue, count⟩

/-- The same machine in an environment that has supplied other bytes and has been drawn from another number of times. -/
def State.withDraws (supplied : List Byte) (drawn : Nat) (s : State) : State :=
  { s with drawQueue := supplied, drawCount := drawn }

/-- Every handler but that of `Cxkk` commutes with a change of the draws (R143). -/
theorem exec_withDraws {i : Instr} (noDraw : ∀ x kk, i ≠ .rndVxKk x kk) (s : State) (supplied : List Byte) (drawn : Nat) :
    mapNext (State.withDraws supplied drawn) (exec i s) = exec i (s.withDraws supplied drawn) := by
  cases i with
  | rndVxKk x kk => exact absurd rfl (noDraw x kk)
  | ret | callAddr => exact apply_dite (mapNext (State.withDraws supplied drawn)) _ _ _
  | ldVxK x =>
    simp only [exec, execLdVxK, State.withDraws]
    split <;> rfl
  | drwVxVyN | ldBVx | ldMemIVx | ldVxMemI => exact accessing_mapNext (State.withDraws supplied drawn) _ _ _
  | _ => rfl

/-- Settles O60: changing the draws before a handler other than that of `Cxkk` is changing them after it; a `Reset` constructs a new
machine in the same environment; and a byte supplied where none was left is the next one drawn. -/
theorem drawsBelongToTheEnvironment : Obligations.DrawsBelongToTheEnvironment := by
  refine ⟨fun i s supplied drawn noDraw => (exec_withDraws noDraw s supplied drawn).symm,
    fun c h => ⟨h.reset, rfl, rfl, rfl, rfl, rfl, rfl⟩, fun c h bytes => rfl, fun c h x kk r noneLeft => ?_⟩
  have supplied : (h.machine.supplyDraws [r]).drawQueue = [r] := by simp [noneLeft]
  obtain ⟨t, ran, bits, queue, count⟩ := exec_rndVxKk_of_supplied supplied x kk
  exact ⟨_, t, rfl, ran, fun k _ => bits k, queue, count⟩

/-- Settles O39: the result is a conjunction of bits, so none stands outside the mask. -/
theorem randomIsTheDrawnByteMasked : Obligations.RandomIsTheDrawnByteMasked := by
  refine ⟨fun s x kk => ?_, fun s x kk r rest supplied => ?_⟩
  · obtain ⟨t, ran, bits, pc, -, -, frame⟩ := exec_rndVxKk_effect s x kk
    refine ⟨t, ran, pc, fun k _ bitSet => ?_, frame⟩
    rw [bits] at bitSet
    exact (Bool.and_eq_true_iff.mp bitSet).2
  · obtain ⟨t, ran, bits, queue, -⟩ := exec_rndVxKk_of_supplied supplied x kk
    exact ⟨t, ran, queue, fun k _ => bits k⟩

/-! ## The indexed jump and the address register (R140, R141, R175) -/

/-- A 12-bit address plus a byte stays below 2^16, so the 16-bit sum is the sum of the numbers (D14). -/
theorem toNat_addrOperand_add_regWide {addr : Nat} (fits : addr < 0x1000) (s : State) (x : RegIx) :
    (addrOperand addr + s.regWide x).toNat = addr + (s.reg x).toNat := by
  have byte := (s.reg x).isLt
  rw [BitVec.toNat_add, toNat_addrOperand fits, toNat_regWide, Nat.mod_eq_of_lt (by omega)]

/-- Settles O27: the new `PC` is a sum that does not wrap. -/
theorem indexedJumpAddsRegisterZero : Obligations.IndexedJumpAddsRegisterZero :=
  fun s _ fits => ⟨_, rfl, toNat_addrOperand_add_regWide fits s 0, frame_pc s _⟩

/-- Settles O37: the values as numbers of the two operand forms, and the frames of the two instructions. -/
theorem addressRegisterIsLoadedAndPointed : Obligations.AddressRegisterIsLoadedAndPointed :=
  ⟨fun addr fits => ⟨encodedAs_of_encode (decide_eq_true fits) (toNat_encodeA (by decide) fits),
      fun _ => ⟨_, rfl, toNat_addrOperand fits, rfl, exec_frame (i := .ldIAddr addr) rfl⟩⟩,
    fun x => ⟨encodedAs_of_encode rfl (toNat_encodeX (by decide) x),
      fun s => ⟨_, rfl, toNat_glyphAddress (s.reg x), rfl, exec_frame (i := .ldFVx x) rfl⟩⟩⟩

end Sys2Proof.Machine

namespace Sys2Proof.Machine

/-! ## What a sprite does to the display (R151 to R153) -/

/-- Some of the first `n` rows of the sprite at `base` has a 1 that lands on the cell: `S(r, c)` of R153, over what `drawSprite` is
given. -/
def DrawCovers (m : Memory) (base : Nat) (startX startY : Byte) (n : Nat) (r : Fin 32) (c : Fin 64) : Prop :=
  ∃ row < n, r = spriteRow startY row ∧ RowCovers (m.read (base + row)) startX 8 c

theorem spriteCovers_iff_drawCovers (s : State) (x y : RegIx) (n : Nat) (r : Fin 32) (c : Fin 64) :
    SpriteCovers s x y n r c ↔ DrawCovers s.mem s.dataAddress (s.reg x) (s.reg y) n r c := by
  simp only [SpriteCovers, DrawCovers, RowCovers, spriteRow, spriteColumn, spriteBit, Fin.ext_iff, Fin.ofNat, State.readByte,
    State.dataAddress]
  constructor
  · rintro ⟨row, inRows, col, inColumns, onRow, onColumn, bit⟩
    exact ⟨row, inRows, onRow, col, inColumns, onColumn, bit⟩
  · rintro ⟨row, inRows, onRow, col, inColumns, onColumn, bit⟩
    exact ⟨row, inRows, col, inColumns, onRow, onColumn, bit⟩

section
variable (m : Memory) (base : Nat) (startX startY : Byte)

theorem not_drawCovers_zero (r : Fin 32) (c : Fin 64) : ¬ DrawCovers m base startX startY 0 r c := by
  rintro ⟨row, inRows, -⟩
  exact absurd inRows row.not_lt_zero

theorem drawCovers_succ (n : Nat) (r : Fin 32) (c : Fin 64) :
    DrawCovers m base startX startY (n + 1) r c ↔
      DrawCovers m base startX startY n r c ∨ (r = spriteRow startY n ∧ RowCovers (m.read (base + n)) startX 8 c) :=
  Nat.exists_lt_succ_right

/-- The rows drawn so far leave the next row of the display as it was. -/
theorem not_drawCovers_next_row {n : Nat} (rows : n < 32) (c : Fin 64) :
    ¬ DrawCovers m base startX startY n (spriteRow startY n) c := by
  rintro ⟨row, inRows, same, -⟩
  exact spriteRow_ne inRows rows same

/-- What a sprite of at most 32 rows does: it is XOR-ed onto the display, and the flag says whether it covers a cell that was 1. -/
theorem drawSprite_spec (d : Display) {n : Nat} (rows : n ≤ 32) :
    (∀ r c, (drawSprite m base startX startY n d).1.cell r c = true ↔
      ¬ (d.cell r c = true ↔ DrawCovers m base startX startY n r c)) ∧
    ((drawSprite m base startX startY n d).2 = true ↔
      ∃ r c, d.cell r c = true ∧ DrawCovers m base startX startY n r c) := by
  induction n with
  | zero => simp [not_drawCovers_zero]
  | succ n ih =>
    obtain ⟨cells, collided⟩ := ih (by omega)
    obtain ⟨cellsRow, collidedRow⟩ := drawRow_spec (m.read (base + n)) startX (spriteRow startY n)
      (drawSprite m base startX startY n d)
    have untouched := not_drawCovers_next_row m base startX startY (n := n) (by omega)
    rw [drawSprite_succ]
    refine ⟨fun r c => ?_, ?_⟩
    · rw [cellsRow, cells, drawCovers_succ]
      by_cases onRow : r = spriteRow startY n
      · simp [onRow, untouched]
      · simp [onRow]
    · rw [collidedRow, collided]
      simp [cells, drawCovers_succ, untouched, and_or_left, exists_or]

/-- XOR-ing the same cells twice changes nothing. -/
theorem drawSprite_drawSprite (d : Display) {n : Nat} (rows : n ≤ 32) :
    (drawSprite m base startX startY n (drawSprite m base startX startY n d).1).1 = d := by
  refine Display.ext_cell fun r c => Bool.eq_iff_iff.mpr ?_
  rw [(drawSprite_spec m base startX startY _ rows).1, (drawSprite_spec m base startX startY d rows).1]
  by_cases covered : DrawCovers m base startX startY n r c <;> simp [covered]

end

/-- Settles O41: a cell the sprite covers is toggled twice, any other never. -/
theorem drawingTwiceRestoresTheDisplay : Obligations.DrawingTwiceRestoresTheDisplay :=
  fun m base startX startY _ d rows => drawSprite_drawSprite m base startX startY d (by omega)

/-! ## The draw instruction (R151, R56) -/

theorem flagByte_eq_zero_or_one (f : Bool) : flagByte f = 0 ∨ flagByte f = 1 := by
  cases f
  · exact .inl rfl
  · exact .inr rfl

theorem flagByte_eq_one_iff (f : Bool) : flagByte f = 1 ↔ f = true := by
  cases f <;> decide

/-- Settles O40: the handler passes its range check, and what it then leaves is what `drawSprite` gives. -/
theorem drawXorsTheSpriteOntoTheDisplay : Obligations.DrawXorsTheSpriteOntoTheDisplay := by
  intro s x y n rows inRange
  obtain ⟨cells, collided⟩ := drawSprite_spec s.mem s.dataAddress (s.reg x) (s.reg y) s.disp (n := n) (by omega)
  have ran : exec (.drwVxVyN x y n) s = .next _ :=
    accessing_eq_next_iff.mpr ⟨by rw [State.dataAddress]; omega, rfl⟩
  refine ⟨_, ran, fun r c => ?_, ?_, ?_, rfl, exec_frame ran⟩
  · rw [spriteCovers_iff_drawCovers]
    exact cells r c
  · rw [State.reg_advance, State.reg_setFlag_same]
    exact flagByte_eq_zero_or_one _
  · rw [State.reg_advance, State.reg_setFlag_same, flagByte_eq_one_iff]
    simpa only [spriteCovers_iff_drawCovers] using collided

/-- Settles O42: the range check is the handler's first act; without rows there is no byte to check and no cell to toggle. -/
theorem drawFaultsWhereASpriteByteIsOutOfRange : Obligations.DrawFaultsWhereASpriteByteIsOutOfRange := by
  refine ⟨fun s x y n someRow outside => ?_, fun s x y => ?_⟩
  · exact accessing_eq_fault_iff.mpr ⟨⟨someRow, by rw [State.dataAddress]; omega⟩, rfl⟩
  · have ran : exec (.drwVxVyN x y 0) s = .next ((s.setFlag false).advance 2) :=
      accessing_eq_next_iff (base := s.dataAddress).mpr ⟨.inl rfl, rfl⟩
    exact ⟨_, ran, s.reg_setFlag_same false, rfl, frame_plain s flagReg (flagByte false)⟩

end Sys2Proof.Machine

namespace Sys2Proof.Machine

/-! ## The key skips (R160, R161) -/

/-- A skip on a condition that does not hold, as `ExA1` makes it on the key's being up. -/
theorem State.toNat_pc_skipIf_not (s : State) (cond : Bool) :
    (s.skipIf (!cond)).pc.toNat = (s.pc.toNat + if cond then 2 else 4) % 2 ^ 16 := by
  cases cond <;> exact s.toNat_pc_skipIf _

/-- A key number is at most 15, so the low nibble of `V[x]` tells which key the skips look at. -/
theorem State.keyOperand_eq_of_val {s : State} {x : RegIx} {k : KeyNum} (numbered : k.val = (s.reg x).toNat % 16) :
    s.keyOperand x = k :=
  Fin.ext ((val_keyOperand s x).trans numbered.symm)

/-- Settles O43: both are conditional skips, on the state of the key that the low nibble numbers. -/
theorem keySkipsLookAtTheNumberedKey : Obligations.KeySkipsLookAtTheNumberedKey := by
  refine fun x => ⟨encodedAs_of_encode rfl (toNat_encodeX (by decide) x),
    encodedAs_of_encode rfl (toNat_encodeX (by decide) x), fun s k numbered => ?_⟩
  obtain rfl := State.keyOperand_eq_of_val numbered
  exact ⟨⟨_, rfl, s.toNat_pc_skipIf _, frame_pc s _⟩, ⟨_, rfl, s.toNat_pc_skipIf_not _, frame_pc s _⟩⟩

end Sys2Proof.Machine

namespace Sys2Proof.Machine

/-! ## The timers and the address register (R170, R172 to R174) -/

/-- Settles O44: each handler is one update and the advance of `PC`, and its frame is that of the instruction. -/
theorem timersAreReadAndSetThroughRegisters : Obligations.TimersAreReadAndSetThroughRegisters :=
  fun s x => ⟨plainResult_effect s x s.dt,
    ⟨_, rfl, rfl, rfl, exec_frame (i := .ldDtVx x) rfl⟩,
    ⟨_, rfl, rfl, rfl, exec_frame (i := .ldStVx x) rfl⟩⟩

/-- A 16-bit sum with a register wraps at 2^16 (D14). -/
theorem toNat_add_regWide (w : Word) (s : State) (x : RegIx) :
    (w + s.regWide x).toNat = (w.toNat + (s.reg x).toNat) % 2 ^ 16 := by
  rw [BitVec.toNat_add, toNat_regWide]

/-- Settles O38: the new `I` is a 16-bit sum. -/
theorem registerIsAddedToTheAddressRegister : Obligations.RegisterIsAddedToTheAddressRegister :=
  fun s x => ⟨_, rfl, toNat_add_regWide s.i s x, rfl, exec_frame (i := .addIVx x) rfl⟩

/-! ## The key wait (R171, R204) -/

theorem execLdVxK_of_blocked {s : State} (x : RegIx) (blocked : s.lrk = none) : execLdVxK x s = .next s :=
  execLdVxK_eq_next_iff.mpr (.inl ⟨blocked, rfl⟩)

theorem execLdVxK_of_released {s : State} (x : RegIx) {k : KeyNum} (released : s.lrk = some k) :
    execLdVxK x s = .next (({ s with lrk := none }.setReg x (BitVec.ofNat 8 k.val)).advance 2) :=
  execLdVxK_eq_next_iff.mpr (.inr ⟨k, released, rfl⟩)

/-- A key number fits a byte. -/
theorem toNat_ofNat_keyNum (k : KeyNum) : (BitVec.ofNat 8 k.val).toNat = k.val := by
  rw [BitVec.toNat_ofNat, Nat.mod_eq_of_lt (by omega)]

/-- Settles O45: the two branches of the handler. -/
theorem keyWaitBlocksThenStoresTheKey : Obligations.KeyWaitBlocksThenStoresTheKey := by
  refine ⟨fun s x blocked => ⟨s, execLdVxK_of_blocked x blocked, rfl⟩, fun s x k released => ?_⟩
  have ran : exec (.ldVxK x) s = .next _ := execLdVxK_of_released x released
  refine ⟨_, ran, ?_, rfl, rfl, exec_frame ran⟩
  rw [State.reg_advance, State.reg_setReg_same, toNat_ofNat_keyNum]

/-- The count of a cycle changes the timer chain only (R222, R223). -/
theorem frame_countCycle (N : Nat) (s : State) :
    Frame (fun p => p ∈ [Component.dt, .st, .cyc, .tone, .events]) s (countCycle N s) := by
  intro p outside
  cases p with
  | dt | st | cyc | tone | events => exact absurd (by simp) outside
  | draws => exact ⟨rfl, rfl⟩
  | _ => rfl

/-- The machine stands at an `Fx0A` that it can fetch, and no key has been released. -/
structure State.WaitsForKey (s : State) (x : RegIx) : Prop where
  fetchable : s.pc.toNat ≤ 0xFFE
  atWait : decode s.wordAtPc = .ok (.ldVxK x)
  blocked : s.lrk = none

/-- A blocked step does nothing but count its cycle (D9). -/
theorem State.WaitsForKey.stepWith_eq {c : Config} {s : State} {x : RegIx} (guardOff : c.fontRegionGuard = false)
    (waits : s.WaitsForKey x) : stepWith c s = .next (countCycle c.cyclesPerTick s) := by
  have ran : exec (.ldVxK x) s = .next s := execLdVxK_of_blocked x waits.blocked
  rw [stepWith_of_decode guardOff waits.fetchable waits.atWait, ran]

/-- The count touches neither `PC`, nor memory, nor the marker, so the machine still waits. -/
theorem State.WaitsForKey.after_countCycle {s : State} {x : RegIx} (waits : s.WaitsForKey x) (N : Nat) :
    (countCycle N s).WaitsForKey x :=
  ⟨waits.fetchable, waits.atWait, waits.blocked⟩

/-- A run that begins with a step that goes on is the run from the state after it (R190, R202). -/
theorem Session.run_step_cons {c : Config} {phase : Phase} {s t : State} (stepped : stepWith c s = .next t)
    (ms : List HostMove) : Session.run c ⟨phase, s⟩ (.step :: ms) = Session.run c ⟨.running, t⟩ ms := by
  have moved : Session.move c ⟨phase, s⟩ .step = .next ⟨.running, t⟩ := by
    simp only [Session.move, Session.step, stepped]
  rw [Session.run, moved]

/-- While it waits any number of steps go on and change the timer chain only, by induction on their number: each counts its cycle and
leaves a machine that waits. -/
theorem State.WaitsForKey.run_steps {c : Config} {s : State} {x : RegIx} (guardOff : c.fontRegionGuard = false)
    (waits : s.WaitsForKey x) (k : Nat) :
    ∃ t, Session.run c ⟨.running, s⟩ (List.replicate k .step) = .next ⟨.running, t⟩ ∧
      Frame (fun p => p ∈ [Component.dt, .st, .cyc, .tone, .events]) s t := by
  induction k generalizing s with
  | zero => exact ⟨s, rfl, Frame.refl _ s⟩
  | succ k ih =>
    obtain ⟨t, ran, frame⟩ := ih (waits.after_countCycle c.cyclesPerTick)
    refine ⟨t, ?_, (frame_countCycle c.cyclesPerTick s).trans frame fun _ => or_self_iff.mp⟩
    rw [List.replicate_succ, Session.run_step_cons (waits.stepWith_eq guardOff), ran]

/-- Settles O46: the hypotheses say that the machine waits. -/
theorem keyWaitKeepsTheMachineAtTheInstruction : Obligations.KeyWaitKeepsTheMachineAtTheInstruction :=
  fun _ _ _ guardOff fetchable atWait blocked k =>
    State.WaitsForKey.run_steps guardOff ⟨fetchable, atWait, blocked⟩ k

/-! ## Accesses from the address in `I` upward (R56, R176 to R178) -/

section
variable {s : State} {n : Nat} (after : State)

/-- An access that ends at `I + n` above 0xFFF faults (D1). -/
theorem accessing_dataAddress_of_outside (outside : s.i.toNat + n > 0xFFF) :
    accessing s.dataAddress (n + 1) after = .fault (.addressOutOfRange (max s.i.toNat 0x1000)) :=
  accessing_eq_fault_iff.mpr ⟨⟨n.succ_ne_zero, by rw [State.dataAddress]; omega⟩, rfl⟩

/-- An access that ends at `I + n` in memory goes on. -/
theorem accessing_dataAddress_of_inRange (inRange : s.i.toNat + n ≤ 0xFFF) :
    accessing s.dataAddress (n + 1) after = .next after :=
  accessing_eq_next_iff.mpr ⟨.inr (by rw [State.dataAddress]; omega), rfl⟩

end

/-! ## Decimal digits (R176) -/

/-- The digits of a byte as numbers, hundreds first. -/
theorem toNat_decimalDigits (b : Byte) :
    (decimalDigits b).map BitVec.toNat = [b.toNat / 100, b.toNat / 10 % 10, b.toNat % 10] := by
  have := b.isLt
  simp [decimalDigits]; omega

/-- After a store of the decimal digits of `b` from `I` upward the byte at offset `k` is digit `k` (R176). -/
theorem toNat_readByte_writeBytes_decimalDigits {s : State} (canonical : s.mem.wf) (inRange : s.i.toNat + 2 ≤ 0xFFF)
    (b : Byte) {k : Nat} (isDigit : k < 3) :
    ((s.writeBytes s.dataAddress (decimalDigits b)).readByte (s.dataAddress + k)).toNat =
      [b.toNat / 100, b.toNat / 10 % 10, b.toNat % 10][k] := by
  have fits : s.dataAddress + (decimalDigits b).length ≤ 0x1000 := by
    rw [length_decimalDigits, State.dataAddress]; omega
  have listed : k < (decimalDigits b).length := isDigit
  have asNumber : (decimalDigits b)[k].toNat = ((decimalDigits b).map BitVec.toNat)[k]'(by simpa using isDigit) :=
    (List.getElem_map _).symm
  rw [State.readByte_writeBytes_inside s canonical fits k listed, asNumber]
  simp only [toNat_decimalDigits]

/-- Settles O48: the range check, the digits read back, and the frame of the instruction. -/
theorem decimalDigitsAreStored : Obligations.DecimalDigitsAreStored := by
  refine ⟨fun s x => accessing_dataAddress_of_outside _, fun s x canonical inRange => ?_, fun s t x ran => exec_frame ran⟩
  have digit {k : Nat} (isDigit : k < 3) := toNat_readByte_writeBytes_decimalDigits canonical inRange (s.reg x) isDigit
  exact ⟨_, accessing_dataAddress_of_inRange _ inRange, digit (k := 0) (by decide), digit (k := 1) (by decide),
    digit (k := 2) (by decide), rfl⟩

/-! ## Register blocks (R177 to R179) -/

/-- Settles O49: the range check, the block read back, and the frame of the instruction. -/
theorem registerBlockIsStored : Obligations.RegisterBlockIsStored :=
  ⟨fun _ _ => accessing_dataAddress_of_outside _,
    fun _ _ canonical inRange => ⟨_, exec_ldMemIVx_eq_next inRange,
      fun _ inBlock => readByte_writeBytes_regBlock canonical inRange inBlock, rfl⟩,
    fun _ _ _ ran => exec_frame ran⟩

/-- `Fx65` with its range inside memory completes (R178). -/
theorem exec_ldVxMemI_eq_next {x : RegIx} {s : State} (inRange : s.i.toNat + x.val ≤ 0xFFF) :
    exec (.ldVxMemI x) s = .next ((s.loadRegBlock x s.dataAddress).advance 2) :=
  accessing_dataAddress_of_inRange _ inRange

/-- After a load of the register block `V[r]` is the byte at offset `r` (R178). -/
theorem reg_loadRegBlock_of_le {x r : RegIx} (s : State) (inBlock : r.val ≤ x.val) :
    (s.loadRegBlock x s.dataAddress).reg r = s.readByte (s.i.toNat + r.val) := by
  rw [State.reg_loadRegBlock, if_pos inBlock, State.dataAddress]

/-- Settles O50: the range check, the registers of the block, and the frame of the instruction. -/
theorem registerBlockIsLoaded : Obligations.RegisterBlockIsLoaded := by
  refine ⟨fun s x => accessing_dataAddress_of_outside _, fun s x inRange => ?_⟩
  have ran := exec_ldVxMemI_eq_next inRange
  refine ⟨_, ran, fun r inBlock => ?_, ?_, exec_frame ran⟩
  · rw [State.reg_advance, reg_loadRegBlock_of_le s inBlock]
  · rw [State.advance_pc, State.loadRegBlock_pc]

/-- A store of a register block that goes on had its range inside memory (R177). -/
theorem exec_ldMemIVx_eq_next_iff {x : RegIx} {s t : State} :
    exec (.ldMemIVx x) s = .next t ↔
      s.i.toNat + x.val ≤ 0xFFF ∧ t = (s.writeBytes s.dataAddress (s.regBlock x)).advance 2 := by
  refine accessing_eq_next_iff.trans (and_congr_left fun _ => ?_)
  rw [State.dataAddress]; omega

/-- Settles O51: the later load reads where the store wrote, and finds there the registers stored. -/
theorem storedRegistersLoadBackUnchanged : Obligations.StoredRegistersLoadBackUnchanged := by
  intro s t u x canonical stored sameI sameBytes
  obtain ⟨inRange, rfl⟩ := exec_ldMemIVx_eq_next_iff.mp stored
  have base : u.i = s.i := sameI
  refine ⟨_, exec_ldVxMemI_eq_next (by rwa [base]), fun r inBlock => ?_⟩
  calc (u.loadRegBlock x u.dataAddress).reg r
    _ = u.readByte (s.i.toNat + r.val) := by rw [reg_loadRegBlock_of_le u inBlock, base]
    _ = (s.writeBytes s.dataAddress (s.regBlock x)).readByte (s.dataAddress + r.val) :=
      sameBytes _ ⟨Nat.le_add_right _ _, by omega⟩
    _ = s.reg r := readByte_writeBytes_regBlock canonical inRange inBlock

end Sys2Proof.Machine

namespace Sys2Proof.Machine

/-! ## What the moves of the outside world keep (R195, R202) -/

section
variable {c : Config} {s : State}

theorem reconstruct_inv (s : State) : s.reconstruct.Inv c := constructed_inv c s.drawQueue s.drawCount

theorem load_keeps_inv (inv : s.Inv c) {image : List Byte} (fits : image.length ≤ maxImage) : (s.load image).Inv c :=
  ⟨s.wf_load inv.memory fits, inv.cycle, inv.sound⟩

theorem setKeyState_keeps_inv (inv : s.Inv c) (k : KeyNum) (pressed : Bool) : (s.setKeyState k pressed).Inv c :=
  ⟨inv.memory, inv.cycle, inv.sound⟩

theorem supplyDraws_keeps_inv (inv : s.Inv c) (bytes : List Byte) : (s.supplyDraws bytes).Inv c :=
  ⟨inv.memory, inv.cycle, inv.sound⟩

end

/-- Every move that goes on keeps the invariant, move by move. -/
theorem Session.move_keeps_inv {c : Config} {h h' : Session} {m : HostMove} (inv : h.machine.Inv c)
    (moved : h.move c m = .next h') : h'.machine.Inv c := by
  obtain ⟨-, rfl⟩ | ⟨image, -, -, fits, rfl⟩ | ⟨t, -, stepped, rfl⟩ | ⟨k, pressed, -, rfl⟩ | ⟨-, rfl⟩ | ⟨bytes, -, rfl⟩ :=
    Session.move_eq_next moved
  · exact reconstruct_inv h.machine
  · exact load_keeps_inv inv fits
  · exact stepWith_keeps_inv inv stepped
  · exact setKeyState_keeps_inv inv k pressed
  · exact inv
  · exact supplyDraws_keeps_inv inv bytes

/-- Settles O17: every move keeps the invariant, so every run does, by induction on its moves. -/
theorem everyHostRunKeepsTheInvariant : Obligations.EveryHostRunKeepsTheInvariant :=
  ⟨fun _ _ _ _ => Session.move_keeps_inv, constructed_inv,
    fun _ => Session.run_keeps fun _ _ _ => Session.move_keeps_inv⟩

end Sys2Proof.Machine

namespace Sys2Proof.Machine

/-! ## Where a handler faults, and where it goes (R192, R210) -/

theorem State.pc_skipIf_of_iff (s : State) {cond : Bool} {p : Prop} [Decidable p] (holds : cond = true ↔ p) :
    (s.skipIf cond).pc = if p then s.pc + 4 else s.pc + 2 := by
  simp only [State.skipIf_pc, holds, apply_ite (s.pc + ·)]

theorem nextPc_ret_of_nonempty {s : State} (h : 0 < s.sp.val) : nextPc .ret s = s.topSlot h + 2 := dif_pos h

/-- The target of an indexed jump as one number reduced modulo 2^16 (D14). -/
theorem addrOperand_add_regWide (addr : Nat) (s : State) (x : RegIx) :
    addrOperand addr + s.regWide x = BitVec.ofNat 16 (addr + (s.reg x).toNat) := by
  rw [BitVec.ofNat_add, BitVec.ofNat_toNat, addrOperand, State.regWide]

/-- An instruction to which R210 assigns a fault answers it. -/
theorem exec_of_handlerFault {i : Instr} {s : State} {f : Fault} (listed : handlerFault i s = some f) :
    exec i s = .fault f := by
  cases i with
  | ret =>
    obtain ⟨empty, ⟨⟩⟩ := Option.ite_none_right_eq_some.mp listed
    exact execRet_of_empty empty
  | callAddr addr =>
    obtain ⟨full, ⟨⟩⟩ := Option.ite_none_right_eq_some.mp listed
    exact execCallAddr_of_full addr full
  | drwVxVyN x y n =>
    obtain ⟨⟨someRow, outside⟩, ⟨⟩⟩ := Option.ite_none_right_eq_some.mp listed
    exact drawFaultsWhereASpriteByteIsOutOfRange.1 s x y n someRow.ne' outside
  | ldBVx | ldMemIVx | ldVxMemI =>
    obtain ⟨outside, ⟨⟩⟩ := Option.ite_none_right_eq_some.mp listed
    exact accessing_dataAddress_of_outside _ outside
  | _ => cases listed

theorem not_of_ite_some_eq_none {p : Prop} [Decidable p] {f : Fault} (h : (if p then some f else none) = none) : ¬ p :=
  fun holds => Option.some_ne_none f ((if_pos holds).symm.trans h)

/-- An instruction to which R210 assigns no fault completes, with the `PC` of R192's table. -/
theorem exec_of_handlerFault_none {i : Instr} {s : State} (unlisted : handlerFault i s = none) :
    ∃ t, exec i s = .next t ∧ t.pc = nextPc i s := by
  cases i with
  | ret =>
    have nonempty : 0 < s.sp.val := Nat.pos_of_ne_zero (not_of_ite_some_eq_none unlisted)
    exact ⟨_, execRet_of_nonempty nonempty, (nextPc_ret_of_nonempty nonempty).symm⟩
  | callAddr addr =>
    have notFull : s.sp.val ≠ 16 := not_of_ite_some_eq_none unlisted
    exact ⟨_, execCallAddr_of_room addr (by omega), rfl⟩
  | seVxKk | seVxVy => exact ⟨_, rfl, s.pc_skipIf_of_iff beq_iff_eq⟩
  | sneVxKk | sneVxVy => exact ⟨_, rfl, s.pc_skipIf_of_iff bne_iff_ne⟩
  | skpVx x => exact ⟨_, rfl, s.pc_skipIf_of_iff Iff.rfl⟩
  | sknpVx x => exact ⟨_, rfl, s.pc_skipIf_of_iff (Bool.not_eq_true' _).to_iff⟩
  | jpV0Addr addr => exact ⟨_, rfl, addrOperand_add_regWide addr s 0⟩
  | drwVxVyN x y n =>
    have inRange : ¬ (n > 0 ∧ s.i.toNat + n - 1 > 0xFFF) := not_of_ite_some_eq_none unlisted
    exact ⟨_, accessing_eq_next_iff.mpr ⟨by rw [State.dataAddress]; omega, rfl⟩, rfl⟩
  | ldBVx | ldMemIVx =>
    have inRange := Nat.not_lt.mp (not_of_ite_some_eq_none unlisted)
    exact ⟨_, accessing_dataAddress_of_inRange _ inRange, rfl⟩
  | ldVxMemI x =>
    have inRange := Nat.not_lt.mp (not_of_ite_some_eq_none unlisted)
    exact ⟨_, exec_ldVxMemI_eq_next inRange, by rw [State.advance_pc, State.loadRegBlock_pc]; rfl⟩
  | ldVxK x =>
    cases released : s.lrk with
    | none => exact ⟨_, execLdVxK_of_blocked x released, (if_pos released).symm⟩
    | some k => exact ⟨_, execLdVxK_of_released x released, (if_neg (by simp [released])).symm⟩
  | _ => exact ⟨_, rfl, rfl⟩

/-- The faults of a handler are those of R210's table and no others. -/
theorem exec_eq_fault_iff {i : Instr} {s : State} {f : Fault} : exec i s = .fault f ↔ handlerFault i s = some f := by
  refine ⟨fun faulted => ?_, exec_of_handlerFault⟩
  cases listed : handlerFault i s with
  | none =>
    obtain ⟨t, completed, -⟩ := exec_of_handlerFault_none listed
    cases faulted.symm.trans completed
  | some g =>
    cases faulted.symm.trans (exec_of_handlerFault listed)
    rfl

/-- Settles O20, instruction by instruction. -/
theorem everyInstructionCompletesWithTheListedPc : Obligations.EveryInstructionCompletesWithTheListedPc :=
  fun _ _ => exec_of_handlerFault_none

/-! ## A step that faulted, after changes of the keys (R193, R200) -/

section
variable {c : Config} {s : State} {f : Fault} (k : KeyNum) (pressed : Bool)

/-- No entry of R210's table looks at the keys or the marker. -/
theorem handlerFault_setKeyState (i : Instr) (s : State) : handlerFault i (s.setKeyState k pressed) = handlerFault i s := by
  cases i <;> rfl

/-- The store guard does not look at the keys either, so the execute stage faults as it did (U1). -/
theorem execAndCount_setKeyState_of_fault {i : Instr} (h : execAndCount c i s = .fault f) :
    execAndCount c i (s.setKeyState k pressed) = .fault f := by
  have guard : storeAliasesFont c i (s.setKeyState k pressed) = storeAliasesFont c i s := by cases i <;> rfl
  rw [execAndCount_eq_fault_iff, exec_eq_fault_iff] at h ⊢
  rwa [guard, handlerFault_setKeyState]

/-- The fetch and the decode do not see the change, and the execute stage faults as before. -/
theorem stepWith_setKeyState_of_fault (h : stepWith c s = .fault f) : stepWith c (s.setKeyState k pressed) = .fault f := by
  have sameFetch : fetch c (s.setKeyState k pressed) = fetch c s := rfl
  revert h
  unfold stepWith
  rw [sameFetch]
  cases fetch c s with
  | error g => exact id
  | ok w =>
    dsimp only
    cases decode w with
    | error e => exact id
    | ok i => exact execAndCount_setKeyState_of_fault k pressed

end

/-- Settles O10, by induction on the changes. -/
theorem faultedStepFaultsAgainAfterAnyKeyChange : Obligations.FaultedStepFaultsAgainAfterAnyKeyChange := by
  intro c s f faulted changes
  induction changes generalizing s with
  | nil => exact faulted
  | cons change changes ih => exact ih _ (stepWith_setKeyState_of_fault change.1 change.2 faulted)

end Sys2Proof.Machine

namespace Sys2Proof.Machine

/-! ## `Load` on a new machine (R64, R197) -/

theorem frame_load (s : State) (image : List Byte) : Frame (fun c => ∃ a, c = .byte a) s (s.load image) := by
  intro c outside
  cases c with
  | byte a => exact absurd ⟨a, rfl⟩ outside
  | draws => exact ⟨rfl, rfl⟩
  | _ => rfl

theorem unlisted_of_lt {a : Nat} (font : a < 80) : Memory.unlisted a = Config.font[a] := dif_pos font

theorem unlisted_of_le {a : Nat} (above : 80 ≤ a) : Memory.unlisted a = 0 := dif_neg (Nat.not_lt.mpr above)

/-- A newly constructed machine lists no byte (R34). -/
theorem readByte_constructed (supplied : List Byte) (drawn a : Nat) :
    (State.constructed supplied drawn).readByte a = Memory.unlisted a := rfl

/-- Settles O55: the image is read back inside its range, and outside it the contents after construction, font included. -/
theorem loadInstallsTheFontAndTheImage : Obligations.LoadInstallsTheFontAndTheImage := by
  intro supplied drawn image fits
  refine ⟨_, if_pos fits, rfl, fun a font => ?_, State.readByte_load_inside _ Memory.wf_nil fits, fun a above outside => ?_,
    frame_load _ image⟩
  · rw [State.readByte_load_outside _ (by omega), if_pos font, unlisted_of_lt font]
  · rw [State.readByte_load_outside _ outside, if_neg (Nat.not_lt.mpr above)]
    exact (readByte_constructed supplied drawn a).trans (unlisted_of_le above)

/-! ## Step, keys and display -/

/-- Settles O6: the build at hand has the guard off. -/
theorem stepRunsTheDecodedInstruction : Obligations.StepRunsTheDecodedInstruction :=
  fun s _ fetchable decoded => stepWith_of_decode rfl fetchable (s.wordAtPc_eq ▸ decoded)

/-- A release of a key that was down marks it (R200). -/
theorem lrk_setKeyState_of_release {s : State} {k : KeyNum} (down : s.keyDown k = true) :
    (s.setKeyState k false).lrk = some k :=
  if_pos ⟨down, rfl⟩

/-- Settles O47: the release has left its mark, and a key wait with a marked key stores it. -/
theorem keyReleaseCompletesTheWait : Obligations.KeyReleaseCompletesTheWait := by
  intro s x k down
  obtain ⟨t, ran, stored, cleared, pc, -⟩ := keyWaitBlocksThenStoresTheKey.2 _ x k (lrk_setKeyState_of_release down)
  exact ⟨t, ran, stored, cleared, pc⟩

theorem frame_setKeyState (s : State) (k : KeyNum) (pressed : Bool) :
    Frame (fun c => c ∈ [Component.key k, .lrk]) s (s.setKeyState k pressed) := by
  intro c outside
  cases c with
  | key n => exact (s.keyDown_setKeyState k n pressed).trans (if_neg fun same => outside (by simp [same]))
  | lrk => exact absurd (by simp) outside
  | draws => exact ⟨rfl, rfl⟩
  | _ => rfl

/-- Settles O58: the marker's condition is a true down-to-up transition. -/
theorem keyStateIsSetAndReleasesAreMarked : Obligations.KeyStateIsSetAndReleasesAreMarked := by
  refine fun s k pressed => ⟨?_, ?_, fun noRelease => ?_, frame_setKeyState s k pressed⟩
  · rw [State.keyDown_setKeyState, if_pos rfl]
  · rintro down rfl
    exact lrk_setKeyState_of_release down
  · rw [State.setKeyState_lrk, if_neg]
    rintro ⟨down, rfl⟩
    simp [down] at noRelease

/-- Settles O59: row `r` of the grid is row `r` of the display, cell by cell. -/
theorem displayIsReadRowFirst : Obligations.DisplayIsReadRowFirst := by
  refine fun s => ⟨by simp [State.display], fun r c => ⟨s.disp[r].toList, ?_, Vector.length_toList, ?_⟩⟩
  · simp [State.display]
  · simp [Display.cell]

end Sys2Proof.Machine

namespace Sys2Proof.Machine

/-! ## One tick of the timers (R224, R225) -/

theorem byte_eq_zero_iff {b : Byte} : b = 0 ↔ b.toNat = 0 := BitVec.toNat_eq

section
variable (s : State)

theorem soundOnCheck_tone : (soundOnCheck s).tone = (s.tone || decide (s.st ≠ 0)) := by
  unfold soundOnCheck
  split
  · next on => rw [decide_eq_true on.1, Bool.or_true]
  · next noEdge =>
    cases tone : s.tone
    · have zero : ¬ s.st ≠ 0 := fun set => noEdge ⟨set, tone⟩
      rw [decide_eq_false zero, Bool.or_false]
    · rfl

theorem soundOffCheck_tone : (soundOffCheck s).tone = (s.tone && decide (s.st ≠ 0)) := by
  unfold soundOffCheck
  split
  · next off => simp [off.1]
  · next noEdge =>
    cases tone : s.tone
    · rfl
    · have set : s.st ≠ 0 := fun zero => noEdge ⟨zero, tone⟩
      rw [decide_eq_true set, Bool.and_true]

theorem soundOnCheck_events :
    (soundOnCheck s).events = s.events ++ if s.st ≠ 0 ∧ s.tone = false then [.soundOn] else [] := by
  unfold soundOnCheck
  split <;> simp

theorem soundOffCheck_events :
    (soundOffCheck s).events = s.events ++ if s.st = 0 ∧ s.tone = true then [.soundOff] else [] := by
  unfold soundOffCheck
  split <;> simp

/-- A nonzero timer turns the tone on, and reaching 0 in the same tick turns it off again (D10). -/
theorem timerTick_tone : (timerTick s).tone = true ↔ s.st.toNat ≥ 2 := by
  have tone : (timerTick s).tone = ((s.tone || decide (s.st ≠ 0)) && decide (countDown s.st ≠ 0)) := by
    rw [timerTick, soundOffCheck_tone, countTimers, soundOnCheck_tone, soundOnCheck_st]
  simp only [tone, Bool.and_eq_true, Bool.or_eq_true, decide_eq_true_eq, ne_eq, byte_eq_zero_iff, toNat_countDown]
  omega

/-- The events of a tick, those of the on-check before those of the off-check. -/
theorem timerTick_events : (timerTick s).events =
    s.events ++ (if s.st.toNat ≠ 0 ∧ s.tone = false then [.soundOn] else []) ++
      (if s.st.toNat ≤ 1 ∧ (s.tone = true ∨ s.st.toNat = 1) then [.soundOff] else []) := by
  have offEdge : (s.st.toNat - 1 = 0 ∧ (s.tone = true ∨ ¬ s.st.toNat = 0)) ↔
      (s.st.toNat ≤ 1 ∧ (s.tone = true ∨ s.st.toNat = 1)) := by
    rw [Nat.sub_eq_zero_iff_le]
    exact and_congr_right fun low => or_congr_right (by omega)
  rw [timerTick, soundOffCheck_events, countTimers, soundOnCheck_events, soundOnCheck_tone, soundOnCheck_st]
  simp only [Bool.or_eq_true, decide_eq_true_eq, ne_eq, byte_eq_zero_iff, toNat_countDown, offEdge]

theorem frame_timerTick : Frame (fun c => c ∈ [Component.dt, .st, .tone, .events]) s (timerTick s) := by
  intro c outside
  rw [timerTick_eq]
  cases c with
  | dt | st | tone | events => exact absurd (by simp) outside
  | draws => exact ⟨rfl, rfl⟩
  | _ => rfl

theorem toNat_dt_timerTick : (timerTick s).dt.toNat = s.dt.toNat - 1 := by rw [timerTick_dt, toNat_countDown]

theorem toNat_st_timerTick : (timerTick s).st.toNat = s.st.toNat - 1 := by rw [timerTick_st, toNat_countDown]

end

/-- Settles O12, field by field. -/
theorem tickCountsDownAndSignalsTheEdges : Obligations.TickCountsDownAndSignalsTheEdges :=
  fun s => ⟨toNat_dt_timerTick s, toNat_st_timerTick s, timerTick_tone s, timerTick_events s, frame_timerTick s⟩

/-! ## Many ticks (R225, R227) -/

/-- Settles O13, by induction on the ticks: each takes 1 from what the ticks before it have left. -/
theorem timersReachZeroAfterTheirValueInTicks : Obligations.TimersReachZeroAfterTheirValueInTicks := by
  intro s k
  induction k with
  | zero => exact ⟨rfl, rfl⟩
  | succ k ih =>
    obtain ⟨dt, st⟩ := ih
    rw [Function.iterate_succ_apply', toNat_dt_timerTick, toNat_st_timerTick, dt, st]
    exact ⟨Nat.sub_sub .., Nat.sub_sub ..⟩

theorem toNat_st_iterate_timerTick (s : State) (k : Nat) : (timerTick^[k] s).st.toNat = s.st.toNat - k :=
  (timersReachZeroAfterTheirValueInTicks s k).2

/-- After a tick the tone sounds exactly while the sound timer is nonzero, whatever it was before. -/
theorem tone_iterate_timerTick (s : State) {k : Nat} (ticked : 0 < k) :
    (timerTick^[k] s).tone = decide (k < s.st.toNat) := by
  obtain ⟨j, rfl⟩ := Nat.exists_eq_add_one.mpr ticked
  rw [Bool.eq_iff_iff, Function.iterate_succ_apply', timerTick_tone, toNat_st_iterate_timerTick, decide_eq_true_eq]
  omega

/-- The first tick turns the tone on, and off again where the timer was 1. -/
theorem timerTick_events_of_silent {s : State} (silent : s.tone = false) (set : s.st ≠ 0) :
    (timerTick s).events = s.events ++ if 1 < s.st.toNat then [.soundOn] else [.soundOn, .soundOff] := by
  have nonzero : s.st.toNat ≠ 0 := mt byte_eq_zero_iff.mpr set
  rw [timerTick_events, if_pos ⟨nonzero, silent⟩, List.append_assoc]
  by_cases long : 1 < s.st.toNat
  · rw [if_pos long, if_neg (by omega)]; rfl
  · rw [if_neg long, if_pos (by omega)]; rfl

/-- A later tick emits `SoundOff` where the timer reaches 0 at it, and nothing else. -/
theorem events_iterate_timerTick_succ (s : State) {k : Nat} (ticked : 0 < k) :
    (timerTick^[k + 1] s).events =
      (timerTick^[k] s).events ++ if s.st.toNat = k + 1 then [.soundOff] else [] := by
  have noOnEdge : ¬ (s.st.toNat - k ≠ 0 ∧ ¬ k < s.st.toNat) := by omega
  have offEdge : (s.st.toNat - k ≤ 1 ∧ (k < s.st.toNat ∨ s.st.toNat - k = 1)) ↔ s.st.toNat = k + 1 := by omega
  rw [Function.iterate_succ_apply', timerTick_events, tone_iterate_timerTick s ticked, toNat_st_iterate_timerTick]
  simp only [decide_eq_false_iff_not, decide_eq_true_eq, if_neg noOnEdge, offEdge, List.append_nil]

/-- Settles O14, by induction on the ticks after the first. -/
theorem toneSignalsEachEdgeOnce : Obligations.ToneSignalsEachEdgeOnce := by
  intro s k silent set ticked
  induction k, ticked using Nat.le_induction with
  | base => exact timerTick_events_of_silent silent set
  | succ k ticked ih =>
    rw [events_iterate_timerTick_succ s ticked, ih, List.append_assoc]
    obtain on | reached | off : k + 1 < s.st.toNat ∨ s.st.toNat = k + 1 ∨ s.st.toNat ≤ k := by omega
    · rw [if_pos (by omega), if_neg (by omega), if_pos on]; rfl
    · rw [if_pos (by omega), if_pos reached, if_neg (by omega)]; rfl
    · rw [if_neg (by omega), if_neg (by omega), if_neg (by omega)]; rfl

/-! ## The count of a step and its faults (R190, R210, R215, R223) -/

/-- Settles O9: the handler leaves `CYC` alone, and the count after it is in R223's words. -/
theorem everySuccessfulStepCountsOneCycle : Obligations.EverySuccessfulStepCountsOneCycle := by
  intro c s t stepped
  obtain ⟨i, u, -, -, -, -, ran, rfl⟩ := stepWith_eq_next stepped
  have cyc : u.cyc = s.cyc := exec_frame ran .cyc not_mayChange_cyc
  refine ⟨i, u, ran, cyc, fun due => ?_, fun notDue => ?_⟩
  · rw [countCycle_eq, cyc, if_pos due]
  · rw [countCycle_eq, cyc, if_neg notDue]

/-- No handler refuses: where R210's table gives no fault it completes, elsewhere it faults. -/
theorem exec_ne_refused (i : Instr) (s : State) (r : Refusal) : exec i s ≠ .refused r := by
  intro refused
  cases listed : handlerFault i s with
  | none =>
    obtain ⟨t, completed, -⟩ := exec_of_handlerFault_none listed
    cases refused.symm.trans completed
  | some f => cases refused.symm.trans (exec_of_handlerFault listed)

/-- Settles O19: whatever R210's table gives, an instruction answers that and nothing else. -/
theorem handlersFaultExactlyWhereListed : Obligations.HandlersFaultExactlyWhereListed :=
  ⟨fun _ _ _ => exec_eq_fault_iff, exec_ne_refused⟩

theorem stepWith_of_fetch_error {c : Config} {s : State} {f : Fault} (stopped : fetch c s = .error f) :
    stepWith c s = .fault f := by
  simp only [stepWith, stopped, raise]

theorem stepWith_of_decode_error {c : Config} {s : State} {w : Word} {e : DecodeError} (fetched : fetch c s = .ok w)
    (undecoded : decode w = .error e) : stepWith c s = .fault (.unknownOpcode w) := by
  simp only [stepWith, fetched, undecoded, raise]

/-- With the guard off a fetch in range answers the word at `PC` (R191). -/
theorem fetch_of_inRange {c : Config} {s : State} (hc : c.fontRegionGuard = false) (inRange : s.pc.toNat ≤ 0xFFE) :
    fetch c s = .ok s.wordAtPc :=
  fetch_eq_ok_iff.mpr ⟨inRange, fetchAliasesFont_of_guard_off hc s, rfl⟩

/-- Settles O7, stage by stage: the build at hand has the guard off. -/
theorem stepReportsTheFirstFailingCheck : Obligations.StepReportsTheFirstFailingCheck := by
  refine ⟨fun s outside => ?_, fun s inRange e undecoded => ?_, fun s inRange i f decoded listed => ?_⟩
  · exact stepWith_of_fetch_error (fetch_eq_error_iff.mpr (.inl ⟨outside, rfl⟩))
  · rw [← s.wordAtPc_eq] at undecoded ⊢
    exact stepWith_of_decode_error (fetch_of_inRange rfl inRange) undecoded
  · rw [stepRunsTheDecodedInstruction s i inRange decoded, exec_of_handlerFault listed]

/-! ## A machine never loaded, and the host's misuse (R244, R252) -/

/-- Unloaded memory reads as 0 at the entry point (R34, R244). -/
theorem reset_wordAtPc : State.reset.wordAtPc = 0x0000 := by
  have high : State.reset.readByte 0x200 = 0 := reset_readByte 0x200
  have low : State.reset.readByte 0x201 = 0 := reset_readByte 0x201
  rw [State.wordAtPc_eq, show State.reset.pc.toNat = 0x200 from rfl, high, low]
  rfl

theorem decode_zero : decode 0x0000 = .error (.unknownOpcode 0x0000) := by decide

/-- Settles O8: the entry point can be fetched from with any parameters, and the word there decodes to nothing. -/
theorem unloadedMachineFaultsOnItsFirstStep : Obligations.UnloadedMachineFaultsOnItsFirstStep :=
  fun _ => stepWith_of_decode_error (reset_wordAtPc ▸ fetch_of_pc_eq_entry rfl) decode_zero

theorem Session.load_of_not_constructed {h : Session} (source : Option (List Byte)) (late : h.phase ≠ .constructed) :
    h.load source = .refused .loadNotFirst := by
  obtain ⟨phase, machine⟩ := h
  cases phase with
  | constructed => exact absurd rfl late
  | loaded | running => rfl

/-- Settles O57: each refusal is its branch of the operation. -/
theorem hostMisuseIsRefused : Obligations.HostMisuseIsRefused := by
  refine ⟨fun _ => Session.load_of_not_constructed, fun h image fresh long => ?_, fun h fresh => ?_,
    fun h k pressed above => ?_⟩
  · simp only [Session.load, fresh]
    exact if_neg (Nat.not_le.mpr long)
  · simp only [Session.load, fresh]
  · exact dif_neg (by omega)

end Sys2Proof.Machine
